-- ==== Sys2Proof/Word.lean ====
section
/-!
DEFINITION. The byte of a frame, and the two plain operations on fixed tables (a table of channels, of ports, of error
kinds) that the model uses: map every entry, set one entry, list the entries with their numbers.
-/

namespace Sys2Proof

/-- One byte of a frame body (12, R198: every format is given in bytes). -/
abbrev Byte := BitVec 8

/-- One entry of a table. -/
def vget {α : Type} {n : Nat} (v : Vector α n) (i : Fin n) : α :=
  v[i.val]

/-- Every entry of a table replaced by its image. -/
def vmap {α β : Type} {n : Nat} (f : α → β) (v : Vector α n) : Vector β n :=
  ⟨⟨v.toArray.toList.map f⟩, by simp⟩

/-- One entry of a table replaced. -/
def vset {α : Type} {n : Nat} (v : Vector α n) (i : Fin n) (x : α) : Vector α n :=
  v.set i.val x i.isLt

/-- The entries of a table in ascending order, each with its number. -/
def enumFin {α : Type} {n : Nat} (v : Vector α n) : List (Fin n × α) :=
  (List.finRange n).zip v.toArray.toList

@[simp] theorem vget_vmap {α β : Type} {n : Nat} (f : α → β) (v : Vector α n) (i : Fin n) :
    vget (vmap f v) i = f (vget v i) := by
  simp [vget, vmap]

theorem vget_vset {α : Type} {n : Nat} (v : Vector α n) (i j : Fin n) (x : α) :
    vget (vset v i x) j = if i = j then x else vget v j := by
  simp [vget, vset, Vector.getElem_set, Fin.ext_iff]

@[simp] theorem vget_vset_self {α : Type} {n : Nat} (v : Vector α n) (i : Fin n) (x : α) :
    vget (vset v i x) i = x := by
  simp [vget, vset]

theorem vget_vset_ne {α : Type} {n : Nat} (v : Vector α n) {i j : Fin n} (x : α) (h : i ≠ j) :
    vget (vset v i x) j = vget v j := by
  rw [vget_vset, if_neg h]

theorem mem_enumFin {α : Type} {n : Nat} {v : Vector α n} {i : Fin n} {x : α}
    (h : (i, x) ∈ enumFin v) : x = vget v i := by
  obtain ⟨k, hk, he⟩ := List.mem_iff_getElem.mp h
  simp only [enumFin, List.getElem_zip, Prod.mk.injEq, List.getElem_finRange] at he
  obtain ⟨h1, h2⟩ := he
  subst h1
  simp [vget, ← h2]

end Sys2Proof
end

