-- ==== Sys2Proof/Syntax.lean ====
section
/-!
DEFINITION. The commands of the part: one constructor for each row of spec/opcode_table.json, and nothing else.

A row is one whole, indivisible step of the part (95; log 1). A line event carries the bytes the line brought (log 8). A
request row is the TAKING of the oldest waiting request of a control port (10, R182): its tag and payload stand in the
port's receive queue, put there by CONTROL_FRAME_RECEIVED, so the row's operand is the port (log 3).
-/

namespace Sys2Proof

/-- A field port, FP0 to FP3 (03, R45). -/
abbrev FPort := Fin 4

/-- A control port (10, R179). -/
inductive CPort where
  | survey
  | plant
  deriving DecidableEq, Repr

/-- The commands. -/
inductive Instr where
  /-- R194: the RESET input is asserted. -/
  | resetAsserted
  /-- R194: the RESET input is released. -/
  | resetReleased
  /-- R195: initialization ends. -/
  | initializationComplete
  /-- R46: the line of a field port brings the sync pair 0xB6 0x49. -/
  | frameStart (p : FPort)
  /-- R46: the line of a field port brings the two length bytes of a length that is refused. -/
  | fieldLengthRefused (p : FPort) (len : BitVec 16)
  /-- R46: the line of a field port brings the bytes up to and with the second CRC byte of a frame. -/
  | fieldFrameComplete (p : FPort) (bytes : List Byte)
  /-- R47: the link timer of a field port reaches 200 ms. -/
  | linkDown (p : FPort)
  /-- R108: the hold-off timer expires. -/
  | holdOffExpiry
  /-- R115: the brightness of the window in flight has been formed. -/
  | stackCompletion
  /-- R92: the validation scan has found every voxel full. -/
  | validationPassed
  /-- R93: the validation scan stops at an incomplete voxel. -/
  | validationFailed
  /-- R157: the amber dwell runs out. -/
  | dwellExpiry
  /-- R180: the line of a control port brings the bytes up to and with the second CRC byte of a frame. -/
  | controlFrameReceived (c : CPort) (bytes : List Byte)
  /-- R180: the line of a control port brings the two length bytes of a length that is refused. -/
  | controlLengthRefused (c : CPort) (len : BitVec 16)
  /-- R184: the transmission of a frame ends. -/
  | transmissionEnd (c : CPort)
  /-- R188: the receive line of a control port has been held spacing for 16 character times. -/
  | portReset (c : CPort)
  /-- R188: the receive line of a control port returns to marking after a break. -/
  | breakEnd (c : CPort)
  /-- R182: the oldest request, whose code is none of the part's, is taken. -/
  | unknownRequest (c : CPort)
  /-- R192. -/
  | identify (c : CPort)
  /-- R193. -/
  | status (c : CPort)
  /-- R191. -/
  | paramGet (c : CPort)
  /-- R190. -/
  | paramSet (c : CPort)
  /-- R186. -/
  | noticeMaskSet (c : CPort)
  /-- R187. -/
  | noticeMaskClear (c : CPort)
  /-- R196. -/
  | arrayStart (c : CPort)
  /-- R197. -/
  | arrayStop (c : CPort)
  /-- R25. -/
  | channelConfig (c : CPort)
  /-- R27. -/
  | channelEnable (c : CPort)
  /-- R28. -/
  | channelDisable (c : CPort)
  /-- R41. -/
  | channelQuery (c : CPort)
  /-- R40. -/
  | channelAlarmClear (c : CPort)
  /-- R52. -/
  | portEnable (c : CPort)
  /-- R53. -/
  | portDisable (c : CPort)
  /-- R55. -/
  | hubMapSet (c : CPort)
  /-- R56. -/
  | hubMapClear (c : CPort)
  /-- R57. -/
  | hubMapGet (c : CPort)
  /-- R79. -/
  | errorReport (c : CPort)
  /-- R80. -/
  | errorConfig (c : CPort)
  /-- R81. -/
  | errorClear (c : CPort)
  /-- R83. -/
  | gridSet (c : CPort)
  /-- R84. -/
  | gridGet (c : CPort)
  /-- R87. -/
  | bankWrite (c : CPort)
  /-- R88. -/
  | bankRead (c : CPort)
  /-- R89. -/
  | bankClear (c : CPort)
  /-- R91. -/
  | bankActivate (c : CPort)
  /-- R96. -/
  | bankAbort (c : CPort)
  /-- R145. -/
  | zoneSet (c : CPort)
  /-- R146. -/
  | zoneGet (c : CPort)
  /-- R153. -/
  | eventFetch (c : CPort)
  /-- R154. -/
  | eventAck (c : CPort)
  /-- R163. -/
  | alertStatus (c : CPort)
  /-- R158. -/
  | alertAck (c : CPort)
  /-- R162. -/
  | injectionSet (c : CPort)
  /-- R175. -/
  | journalRead (c : CPort)
  /-- R176. -/
  | journalRelease (c : CPort)
  /-- R177. -/
  | journalClear (c : CPort)
  /-- R180: the line of a control port brings the sync pair 0xB6 0x49. -/
  | controlFrameStart (c : CPort)
  deriving DecidableEq, Repr

end Sys2Proof
end

