-- ==== Sys2Proof/Config.lean ====
section
/-!
DEFINITION. The fixed numbers of the part (00, Fixed numbers), and the free values: what the manual leaves open, as
constants without a body, so that every statement holds whatever they are.
-/

namespace Sys2Proof.Config

/-- Array channels (00, Fixed numbers). -/
abbrev numChannels : Nat := 256
/-- Slots of a channel ring (01, R15). -/
def ringSlots : Nat := 1024
/-- The most voxels of a grid (05, R82). -/
def maxVoxels : Nat := 4096
/-- Places of the event queue (08, R149). -/
def queuePlaces : Nat := 32
/-- Places of the journal (09, R166). -/
def journalPlaces : Nat := 512
/-- Places of a control port's receive queue (10, R179). -/
def requestPlaces : Nat := 4
/-- Tags a control port's refusals hold (10, R179). -/
def refusalPlaces : Nat := 8
/-- The distance of the write limit from tick 16F (03, R64). -/
def writeSpan : Nat := 696
/-- Largest body on a field port (03, R46). -/
def fieldMaxBody : Nat := 8192
/-- Largest body on a control port (10, R180). -/
def controlMaxBody : Nat := 1024
/-- The link timeout in milliseconds (03, R47). -/
def linkTimeout : Nat := 200
/-- The spacing time that makes a break, in character times (10, R188). -/
def breakTime : Nat := 16
/-- The greatest 32-bit number: the last event sequence (R140), the last journal serial (R168), a full tally (R171). -/
def max32 : Nat := 4294967295
/-- The greatest 16-bit number: a saturated error count (R70) or reset count (R188). -/
def max16 : Nat := 65535

/-- FREE VALUE (DESIGN CHOICE, log 16): the byte by which a BANK READ reply states that the bank read is ACTIVE. R88 puts
the state of the bank into the reply and R198 gives no code for ACTIVE. -/
opaque activeBankStateCode : Byte

/-- FREE VALUE (DESIGN CHOICE, log 24): whether BANK READ of an absent active bank with a voxel, start or count out of
range is answered STATE (true) or RANGE (false). R88 does not order the two. -/
opaque bankReadStateFirst : Bool

/-- FREE VALUE (DESIGN CHOICE, log 17): the value that the RANGE reply to a PARAM SET carries behind an identifier that names
no parameter. R190 puts the identifier and the value held into the reply, and there is no value held. -/
opaque unheldParamValue : Byte → BitVec 32

end Sys2Proof.Config
end

