-- ==== Sys2Proof/Machine/Params.lean ====
section
/-!
DEFINITION. The thirty parameters of the part: identifier, code, range, default and kind (10, R190's table; 12.3).
-/

namespace Sys2Proof.Machine

/-- The parameters, in the order of their codes (12.3). -/
inductive ParamId where
  | ks | kl | freezeLevel | ltaFloor | muteHold | releaseHold | lostDepth | gapFill | holdOff | smin | pickLevel
  | t1 | kmin | confirmLimit | tRelease | quietClose | eMax | pickRadius | pickCap
  | amberShut | redShut | amberCirc | redCirc | amberStim | redStim | rehearsal | amberDwell
  | journalLevel | postCount | journalMode
  deriving DecidableEq, Repr

/-- A row of R190's table: the code of 12.3, the least and greatest value, the default, and whether the parameter is a
mode parameter (its codes are then the values of its range). -/
structure ParamRow where
  code : Nat
  least : Nat
  greatest : Nat
  default : Nat
  mode : Bool
  deriving DecidableEq, Repr

/-- R190's table with the codes of 12.3. -/
def ParamId.row : ParamId → ParamRow
  | .ks => ⟨0x01, 1, 4, 2, false⟩
  | .kl => ⟨0x02, 5, 10, 7, false⟩
  | .freezeLevel => ⟨0x03, 0, 239, 16, false⟩
  | .ltaFloor => ⟨0x04, 1, 65535, 64, false⟩
  | .muteHold => ⟨0x05, 1, 60, 10, false⟩
  | .releaseHold => ⟨0x06, 1, 60, 10, false⟩
  | .lostDepth => ⟨0x07, 64, 640, 375, false⟩
  | .gapFill => ⟨0x08, 0, 64, 16, false⟩
  | .holdOff => ⟨0x09, 0, 3000, 1000, false⟩
  | .smin => ⟨0x0A, 1, 256, 8, false⟩
  | .pickLevel => ⟨0x0B, 0, 239, 24, false⟩
  | .t1 => ⟨0x0C, 1, 3824, 160, false⟩
  | .kmin => ⟨0x0D, 1, 256, 6, false⟩
  | .confirmLimit => ⟨0x0E, 1, 4, 2, false⟩
  | .tRelease => ⟨0x0F, 0, 3824, 96, false⟩
  | .quietClose => ⟨0x10, 1, 8, 3, false⟩
  | .eMax => ⟨0x11, 1, 16, 12, false⟩
  | .pickRadius => ⟨0x12, 0, 8, 4, false⟩
  | .pickCap => ⟨0x13, 0, 48, 24, false⟩
  | .amberShut => ⟨0x15, 0, 3825, 480, false⟩
  | .redShut => ⟨0x16, 0, 3825, 960, false⟩
  | .amberCirc => ⟨0x17, 0, 3825, 400, false⟩
  | .redCirc => ⟨0x18, 0, 3825, 800, false⟩
  | .amberStim => ⟨0x19, 0, 3825, 320, false⟩
  | .redStim => ⟨0x1A, 0, 3825, 640, false⟩
  | .rehearsal => ⟨0x1B, 0, 1, 0, true⟩
  | .amberDwell => ⟨0x1C, 1, 1440, 60, false⟩
  | .journalLevel => ⟨0x1D, 0, 3824, 96, false⟩
  | .postCount => ⟨0x1E, 0, 255, 64, false⟩
  | .journalMode => ⟨0x1F, 0, 1, 0, true⟩

/-- Every parameter, in the order of its place. -/
def ParamId.all : List ParamId :=
  [.ks, .kl, .freezeLevel, .ltaFloor, .muteHold, .releaseHold, .lostDepth, .gapFill, .holdOff, .smin, .pickLevel,
   .t1, .kmin, .confirmLimit, .tRelease, .quietClose, .eMax, .pickRadius, .pickCap,
   .amberShut, .redShut, .amberCirc, .redCirc, .amberStim, .redStim, .rehearsal, .amberDwell,
   .journalLevel, .postCount, .journalMode]

/-- The place of a parameter in the table of values. -/
def ParamId.place (i : ParamId) : Fin 30 := ⟨i.ctorIdx, by cases i <;> decide⟩

/-- The parameter an identifier byte names (12.3: 0x00, 0x14 and all above 0x1F name none). -/
def ParamId.ofCode (c : Nat) : Option ParamId := ParamId.all.find? fun i => i.row.code == c

/-- The values the parameters hold. -/
abbrev Params := Vector Nat 30

/-- Every parameter at its default (10.7). -/
def Params.powerOn : Params := ⟨⟨ParamId.all.map fun i => i.row.default⟩, rfl⟩

/-- The value a parameter holds. -/
def Params.get (ps : Params) (i : ParamId) : Nat := vget ps i.place

/-- A parameter given a value. -/
def Params.put (ps : Params) (i : ParamId) (v : Nat) : Params := vset ps i.place v

/-- The other threshold of the same injection state, and whether the parameter itself is the amber one (R148). -/
def ParamId.partner : ParamId → Option (ParamId × Bool)
  | .amberShut => some (.redShut, true)
  | .redShut => some (.amberShut, false)
  | .amberCirc => some (.redCirc, true)
  | .redCirc => some (.amberCirc, false)
  | .amberStim => some (.redStim, true)
  | .redStim => some (.amberStim, false)
  | _ => none

/-- The value a tuning parameter takes when `v` is given (R190), a default-zone threshold being further held to its
partner: an amber threshold at most its red one, a red threshold at least its amber one (R148). -/
def Params.clamped (ps : Params) (i : ParamId) (v : Nat) : Nat :=
  let w := max i.row.least (min i.row.greatest v)
  match i.partner with
  | some (red, true) => min w (ps.get red)
  | some (amber, false) => max w (ps.get amber)
  | none => w

end Sys2Proof.Machine
end

