-- ==== Sys2Proof/Machine/State.lean ====
section
/-!
DEFINITION. The state of the part: every record the manual gives its blocks (00, "The part in outline"), as plain data,
and the queue of commands still to be taken. Each record's docstring cites the rule that lists its fields; the reset
value of every field is the rule's power-on value (State.reset; log 19).
-/

namespace Sys2Proof.Machine

/-- What stops the machine with a fault: nothing. The part answers every command; a bad frame is discarded and logged, a
bad request is answered with a status. -/
inductive Fault where
  deriving DecidableEq, Repr

/-- What the model refuses. `notModelled` is raised by no arm of exec (safe: a refusal proves nothing false). -/
inductive Refusal where
  | notModelled (mnemonic : String)
  deriving DecidableEq, Repr

/-! ## Run control -/

/-- The array state (11, R194). -/
inductive ArrayState where
  | initializing
  | stopped
  | running
  deriving DecidableEq, Repr

/-! ## Channels -/

/-- The sign of a first difference (01, R7). -/
inductive Sign where
  | pos
  | neg
  deriving DecidableEq, Repr

/-- The tick being accumulated (01, R1). -/
structure PartialTick where
  tick : Nat
  a : Nat
  sign : Sign
  m : Nat
  deriving DecidableEq, Repr

/-- The conditioning record (01, R1). -/
structure CondRec where
  last : Option Int
  part : Option PartialTick
  sta : Option Nat
  lta : Option Nat
  prevC : Nat
  restartTick : Nat
  settleRemaining : Nat
  lastClipped : Option Nat
  completeThrough : Option Nat
  deriving DecidableEq, Repr

/-- A ring slot that is not empty (01, R15). -/
structure Slot where
  tick : Nat
  c : Nat
  sign : Sign
  deriving DecidableEq, Repr

/-- A sparse addressed store: (key, value) pairs, keys strictly rising; an unlisted key holds nothing. -/
abbrev Store (α : Type) := List (Nat × α)

/-- A channel ring: slot number to slot (01, R15). -/
abbrev Ring := Store Slot

/-- The channel states (02, R24). -/
inductive ChanState where
  | off
  | await
  | settling
  | live
  | muted
  | lagging
  | lost
  deriving DecidableEq, Repr

/-- The polarity of a channel (02, R24). -/
inductive Polarity where
  | positive
  | negative
  deriving DecidableEq, Repr

/-- The configuration of a channel (02, R24; the levels are those of R21). -/
structure ChanConfig where
  weight : Nat
  polarity : Polarity
  clip : Nat
  noise : Nat
  quiet : Nat
  autoMute : Bool
  deriving DecidableEq, Repr

/-- A hold: the established flag and the run count (02, R31). -/
structure Hold where
  established : Bool
  run : Nat
  deriving DecidableEq, Repr

/-- The latched alarms of a channel (02, R39). -/
structure Alarms where
  noisy : Bool
  quiet : Bool
  clipped : Bool
  deriving DecidableEq, Repr

/-- A channel: the supervisor record (02, R24), the conditioning record (01, R1) and the ring (01, R15). -/
structure Channel where
  cfg : ChanConfig
  weightInForce : Nat
  state : ChanState
  alarms : Alarms
  noisyHold : Hold
  quietHold : Hold
  changed : Bool
  cond : Option CondRec
  ring : Ring
  deriving DecidableEq, Repr

/-- A hold not established with its count at 0 (02, R24). -/
def Hold.clear : Hold := ⟨false, 0⟩

/-- The power-on values of a channel (01, R1, R21; 02, R24). -/
def Channel.powerOn : Channel where
  cfg := ⟨8, .positive, 8000000, 0, 0, true⟩
  weightInForce := 8
  state := .off
  alarms := ⟨false, false, false⟩
  noisyHold := Hold.clear
  quietHold := Hold.clear
  changed := false
  cond := none
  ring := []

/-! ## Field ports -/

/-- The state of a field port (03, R45). -/
inductive PortState where
  | disabled
  | up
  | down
  | failed
  deriving DecidableEq, Repr

/-- The progress of a frame on a line (03, R46; 10, R179). Hunting remembers whether the last byte was 0xB6; receiving
holds the bytes taken since the sync pair. -/
inductive Receiver where
  | hunting (half : Bool)
  | receiving (got : List Byte)
  deriving DecidableEq, Repr

/-- The error kinds, in the order of their bit numbers (04; 12.1). -/
inductive ErrKind where
  | frameCheck
  | frameForm
  | receiveOverflow
  | hubUnknown
  | shape
  | sequence
  | timeBehind
  | timeJump
  | linkDown
  | slip
  deriving DecidableEq, Repr

/-- The severity of an error kind (04, R68). -/
inductive Severity where
  | fatal
  | nonfatal
  | advisory
  deriving DecidableEq, Repr

/-- The record of one error kind (04, R68). -/
structure KindRec where
  flag : Bool
  count : Nat
  masked : Bool
  severity : Severity
  deriving DecidableEq, Repr

/-- The header log, each field present or absent (04, R75). -/
structure HeaderLog where
  length : Option Nat
  cls : Option Nat
  hubId : Option Nat
  sequence : Option Nat
  firstAsn : Option Nat
  samples : Option Nat
  channels : Option Nat
  deriving DecidableEq, Repr

/-- The error log of a field port (04, R68): ten kind records, the first-error record and the header log. -/
structure ErrorLog where
  kinds : Vector KindRec 10
  first : Option ErrKind
  header : Option HeaderLog
  deriving DecidableEq, Repr

/-- The power-on severity of each kind (04, the table ahead of R68). -/
def ErrKind.powerOnSeverity : ErrKind → Severity
  | .frameCheck => .advisory
  | .frameForm => .nonfatal
  | .receiveOverflow => .nonfatal
  | .hubUnknown => .nonfatal
  | .shape => .nonfatal
  | .sequence => .advisory
  | .timeBehind => .advisory
  | .timeJump => .nonfatal
  | .linkDown => .nonfatal
  | .slip => .advisory

/-- Every error kind, in the order of the bit numbers (12.1). -/
def ErrKind.all : List ErrKind :=
  [.frameCheck, .frameForm, .receiveOverflow, .hubUnknown, .shape, .sequence, .timeBehind, .timeJump, .linkDown, .slip]

/-- The bit number of an error kind, and its place in the log (12.1). -/
def ErrKind.place (k : ErrKind) : Fin 10 := ⟨k.ctorIdx, by cases k <;> decide⟩

/-- The power-on values of an error log (04, R68). -/
def ErrorLog.powerOn : ErrorLog where
  kinds := ⟨⟨ErrKind.all.map fun k => ⟨false, 0, false, k.powerOnSeverity⟩⟩, rfl⟩
  first := none
  header := none

/-- How a packet stands to its hub's stream (03, R59). -/
inductive PacketClass where
  | first
  | contiguous
  | gap (expected : Nat)
  | jump
  | overlap (expected : Nat)
  deriving DecidableEq, Repr

/-- A taken packet: the run it was decoded to (R50), its first ASN, its samples per channel and its class (R59). -/
structure Packet where
  base : Nat
  count : Nat
  asn : Nat
  samples : Nat
  cls : PacketClass
  deriving DecidableEq, Repr

/-- The frame in the handling place: its body, and once it has been taken the packet it was decoded to (03, R45, R50). -/
structure Handling where
  body : List Byte
  packet : Option Packet
  deriving DecidableEq, Repr

/-- The record of a field port (03, R45) with its error log (04, R68). The link timer counts milliseconds, or is stopped. -/
structure FieldPort where
  state : PortState
  rx : Receiver
  linkTimer : Option Nat
  handling : Option Handling
  waiting : Option (List Byte)
  slipWait : Bool
  log : ErrorLog
  deriving DecidableEq, Repr

/-- The power-on values of a field port (03, R45). -/
def FieldPort.powerOn : FieldPort where
  state := .disabled
  rx := .hunting false
  linkTimer := none
  handling := none
  waiting := none
  slipWait := false
  log := ErrorLog.powerOn

/-- A hub map entry (03, R54): Q and E are the expected sequence and the expected ASN. -/
structure HubEntry where
  valid : Bool
  port : Nat
  base : Nat
  count : Nat
  expSeq : Option Nat
  expAsn : Option Nat
  deriving DecidableEq, Repr

/-- The power-on values of a hub map entry (03, R54). -/
def HubEntry.powerOn : HubEntry := ⟨false, 0, 0, 1, none, none⟩

/-! ## Bank controller -/

/-- The grid record (05, R82); V is computed from it. -/
structure Grid where
  nx : Nat
  ny : Nat
  nz : Nat
  originX : Int
  originY : Int
  originZ : Int
  spacingX : Nat
  spacingY : Nat
  spacingZ : Nat
  deriving DecidableEq, Repr

/-- The entries of a delay bank: key voxel × 256 + channel, an unlisted key being unwritten (05, R85). -/
abbrev Bank := List Host.Cell

/-- The state of the standby bank (05, R85). -/
inductive StandbyState where
  | empty
  | loading
  | checking
  | pending
  deriving DecidableEq, Repr

/-- The phase of the activation in flight (05, R90). -/
inductive Phase where
  | none
  | checking
  | pending
  deriving DecidableEq, Repr

/-- How the last activation ended (05, R90). -/
inductive OutcomeRec where
  | empty
  | swapped (serial dMax : Nat)
  | incomplete (voxel : Nat)
  | aborted (phase : Phase)
  deriving DecidableEq, Repr

/-- The bank controller (05, R82, R85, R90). `validated` is the largest delay that the validation of a PENDING bank
found (R92), which its swap makes D_max (R95). -/
structure BankCtl where
  grid : Grid
  active : Bank
  standby : Bank
  hasActive : Bool
  standbyState : StandbyState
  activeSerial : Nat
  dMax : Nat
  validated : Nat
  outcome : OutcomeRec
  serialCounter : Nat
  deriving DecidableEq, Repr

/-- The power-on values of the bank controller (05, R82, R85, R90). -/
def BankCtl.powerOn : BankCtl where
  grid := ⟨1, 1, 1, 0, 0, 0, 0, 0, 0⟩
  active := []
  standby := []
  hasActive := false
  standbyState := .empty
  activeSerial := 0
  dMax := 0
  validated := 0
  outcome := .empty
  serialCounter := 0

/-! ## Stack scheduler and engine -/

/-- The scheduler states (06, R100). -/
inductive SchedState where
  | unset
  | collecting
  | holding
  | stacking
  deriving DecidableEq, Repr

/-- A contributor of a window and its weight in force (06, R110). -/
abbrev Contributor := Fin 256 × Nat

/-- The window in flight (06, R110); n and N are computed from the contributors. -/
structure Window where
  window : Nat
  contributors : List Contributor
  serial : Nat
  dMax : Nat
  blind : Bool
  deriving DecidableEq, Repr

/-- A request for a slip that waits for a stacking to complete: its port and the last tick of its packet (06, R100). -/
structure SlipReq where
  port : FPort
  lastTick : Nat
  deriving DecidableEq, Repr

/-- The scheduler record (06, R100). The hold-off timer is the milliseconds left, or stopped. -/
structure Sched where
  front : Option Nat
  state : SchedState
  timer : Option Nat
  window : Option Window
  slips : List SlipReq
  deriving DecidableEq, Repr

/-- The scheduler at power-on, in INITIALIZING and in STOPPED (06, R100). -/
def Sched.powerOn : Sched := ⟨none, .unset, none, none, []⟩

/-! ## Trigger unit and event builder -/

/-- A window peak record (06, R114); n and N are computed from the snapshot. -/
structure Peak where
  window : Nat
  voxel : Nat
  tick : Nat
  b : Nat
  k : Nat
  contributors : List Contributor
  serial : Nat
  deriving DecidableEq, Repr

/-- The trigger states (07, R124). -/
inductive TrigState where
  | idle
  | armed
  | opened
  deriving DecidableEq, Repr

/-- The trigger record (07, R124). -/
structure Trigger where
  state : TrigState
  candidate : Option Peak
  armedCount : Nat
  openCount : Nat
  quietCount : Nat
  deriving DecidableEq, Repr

/-- The trigger record at power-on (07, R124). -/
def Trigger.powerOn : Trigger := ⟨.idle, none, 0, 0, 0⟩

/-- The injection states (08, R155). -/
inductive Injection where
  | shutIn
  | circulating
  | stimulating
  deriving DecidableEq, Repr

/-- The amber and the red threshold of one injection state (07, R138). -/
structure Threshold where
  amber : Nat
  red : Nat
  deriving DecidableEq, Repr

/-- A zone rule (07, R138). -/
structure ZoneRule where
  enabled : Bool
  ix0 : Nat
  ix1 : Nat
  iy0 : Nat
  iy1 : Nat
  iz0 : Nat
  iz1 : Nat
  suppress : Bool
  shutIn : Threshold
  circulating : Threshold
  stimulating : Threshold
  deriving DecidableEq, Repr

/-- The power-on values of a zone rule (07, R138). -/
def ZoneRule.powerOn : ZoneRule :=
  ⟨false, 0, 0, 0, 0, 0, 0, false, ⟨3825, 3825⟩, ⟨3825, 3825⟩, ⟨3825, 3825⟩⟩

/-- The level of an event (07, R141). -/
inductive EventLevel where
  | none
  | amber
  | red
  deriving DecidableEq, Repr

/-- The first ground motion of a pick (07, R136). -/
inductive Motion where
  | up
  | down
  deriving DecidableEq, Repr

/-- A pick (07, R136). -/
structure Pick where
  channel : Fin 256
  offset : Int
  c : Nat
  motion : Motion
  deriving DecidableEq, Repr

/-- An event record (07, R143). -/
structure EventRecord where
  sequence : Nat
  serial : Nat
  originTick : Nat
  voxel : Nat
  ix : Nat
  iy : Nat
  iz : Nat
  bBest : Nat
  n : Nat
  weightSum : Nat
  k : Nat
  openCount : Nat
  zone : Nat
  injection : Injection
  level : EventLevel
  truncated : Bool
  limit : Bool
  rehearsal : Bool
  picks : List Pick
  deriving DecidableEq, Repr

/-! ## Event queue and alert unit -/

/-- The last queued summary (08, R149). -/
structure Summary where
  sequence : Nat
  level : EventLevel
  zone : Nat
  bBest : Nat
  deriving DecidableEq, Repr

/-- The event queue (08, R149), records oldest first. -/
structure EventQueue where
  records : List EventRecord
  counter : Nat
  last : Option Summary
  deriving DecidableEq, Repr

/-- The event queue at power-on (08, R149). -/
def EventQueue.powerOn : EventQueue := ⟨[], 0, none⟩

/-- The alert levels (08, R155). -/
inductive AlertLevel where
  | green
  | amber
  | red
  deriving DecidableEq, Repr

/-- The amber dwell timer (08, R155): RUNNING holds the milliseconds left. -/
inductive Dwell where
  | stopped
  | running (left : Nat)
  | expired
  deriving DecidableEq, Repr

/-- The alert record (08, R155). -/
structure Alert where
  level : AlertLevel
  cause : Nat
  acknowledged : Bool
  dwell : Dwell
  injection : Injection
  deriving DecidableEq, Repr

/-- The alert record at power-on (08, R155). -/
def Alert.powerOn : Alert := ⟨.green, 0, false, .stopped, .shutIn⟩

/-! ## Journal -/

/-- The kinds of a run (09, R166). -/
inductive RunKind where
  | stall
  | blind
  deriving DecidableEq, Repr

/-- The content of a journal entry (09, R167). -/
inductive EntryBody where
  | quiet (count : Nat)
  | peak (window voxel offset b k n : Nat)
  | blind (window n : Nat)
  | stall (window laggards : Nat)
  | slip (first skipped : Nat)
  | trigger (old new : TrigState) (window : Nat) (rejected : Bool)
  | event (sequence : Nat) (level : EventLevel)
  | suppressed (voxel b : Nat)
  | evicted (sequence : Nat)
  | dropped (sequence : Nat)
  | bank (serial dMax : Nat)
  | channel (channel : Fin 256) (old new : ChanState)
  | run (stop : Bool)
  | repeated (kind : RunKind) (tally : Nat)
  | resumed
  deriving DecidableEq, Repr

/-- A journal entry (09, R167). -/
structure Entry where
  serial : Nat
  body : EntryBody
  deriving DecidableEq, Repr

/-- The journal record (09, R166), entries oldest first. `spent` says that an entry has been written with the last
serial (R168; log 21). -/
structure Journal where
  entries : List Entry
  next : Nat
  quiet : Nat
  run : Option (RunKind × Nat)
  tally : Nat
  held : Bool
  post : Option Nat
  cause : Option Nat
  spent : Bool
  deriving DecidableEq, Repr

/-- The journal at power-on (09, R166). -/
def Journal.powerOn : Journal := ⟨[], 1, 0, none, 0, false, none, none, false⟩

/-! ## Control ports -/

/-- The notice kinds, in the order of their codes (10, R185; 12.4). -/
inductive NoticeKind where
  | start
  | portReset
  | event
  | alert
  | channel
  | fieldError
  | journalHeld
  | bankDone
  | plantLink
  | injection
  deriving DecidableEq, Repr

/-- The reply statuses (10.3; 12.2). -/
inductive Status where
  | ok
  | clamped
  | accepted
  | busy
  | state
  | range
  | permission
  | notReady
  | unknown
  | form
  | stale
  | tooLate
  | nothing
  deriving DecidableEq, Repr

/-- A request frame in a receive queue (10, R180): tag, request code, payload. -/
structure Request where
  tag : Byte
  code : Byte
  payload : List Byte
  deriving DecidableEq, Repr

/-- A reply (10, R182). -/
structure Reply where
  tag : Byte
  code : Byte
  status : Status
  payload : List Byte
  deriving DecidableEq, Repr

/-- The reply place (10, R179): the reply, whether its transmission has begun, and how many of the waiting refusals were
formed before it (R184). -/
structure ReplyPlace where
  reply : Reply
  begun : Bool
  ahead : Nat
  deriving DecidableEq, Repr

/-- A request frame answered BUSY whose reply has not been sent (10, R179, R181): the reply carries its tag and code. -/
structure Refused where
  tag : Byte
  code : Byte
  deriving DecidableEq, Repr

/-- A frame being sent, byte for byte, and whether it is the reply of the reply place (10, R179, R184). -/
structure TxFrame where
  bytes : List Byte
  isReply : Bool
  deriving DecidableEq, Repr

/-- The receiver of a control port (10, R179). -/
inductive CtlReceiver where
  | line (rx : Receiver)
  | inBreak
  deriving DecidableEq, Repr

/-- The record of a control port (10, R179). -/
structure CtlPort where
  rx : CtlReceiver
  spacing : Nat
  queue : List Request
  refusals : List Refused
  reply : Option ReplyPlace
  tx : Option TxFrame
  pending : List NoticeKind
  mask : List NoticeKind
  resets : Nat
  deriving DecidableEq, Repr

/-- The power-on values of a control port (10, R179). -/
def CtlPort.powerOn : CtlPort := ⟨.line (.hunting false), 0, [], [], none, none, [], [], 0⟩

/-! ## The whole part -/

/-- The state of the part. `pending` is the queue of commands still to be taken, first in, first out; `order` is the
model's own tape of free order choices (log 4), on which no statement rests. -/
structure State where
  pending : List Instr
  order : List Nat
  resetAsserted : Bool
  amberLine : Bool
  redLine : Bool
  array : ArrayState
  params : Params
  channels : Vector Channel 256
  ports : Vector FieldPort 4
  hubs : Vector HubEntry 16
  banks : BankCtl
  sched : Sched
  trig : Trigger
  zones : Vector ZoneRule 8
  queue : EventQueue
  alert : Alert
  journal : Journal
  survey : CtlPort
  plant : CtlPort
  deriving DecidableEq, Repr

/-- The part right after the release of RESET (11, R194, R195): INITIALIZING, every block at its power-on values. -/
def State.reset : State where
  pending := []
  order := []
  resetAsserted := false
  amberLine := false
  redLine := false
  array := .initializing
  params := Params.powerOn
  channels := Vector.replicate 256 Channel.powerOn
  ports := Vector.replicate 4 FieldPort.powerOn
  hubs := Vector.replicate 16 HubEntry.powerOn
  banks := BankCtl.powerOn
  sched := Sched.powerOn
  trig := Trigger.powerOn
  zones := Vector.replicate 8 ZoneRule.powerOn
  queue := EventQueue.powerOn
  alert := Alert.powerOn
  journal := Journal.powerOn
  survey := CtlPort.powerOn
  plant := CtlPort.powerOn

end Sys2Proof.Machine
end

