-- ==== Sys2Proof/Machine/Ops.lean ====
section
/-!
DEFINITION. The named operations over the state: the addressed stores, one entry of a table, a control port, the raising
of a notice, the alert level with its lines, and the free order choices.
-/

namespace Sys2Proof.Machine

/-! ## Addressed stores -/

/-- What a key of a store holds; an unlisted key holds nothing. -/
def Store.read {α : Type} : Store α → Nat → Option α
  | [], _ => none
  | (a, x) :: r, k => if k = a then some x else Store.read r k

/-- A key of a store given a value, the keys kept strictly rising. -/
def Store.write {α : Type} : Store α → Nat → α → Store α
  | [], k, v => [(k, v)]
  | (a, x) :: r, k, v =>
    if k < a then (k, v) :: (a, x) :: r
    else if k = a then (k, v) :: r
    else (a, x) :: Store.write r k v

/-- The canonical form: every key of the rest lies above the first, and the rest has the form. -/
def Store.wf {α : Type} : Store α → Bool
  | [] => true
  | (a, _) :: r => r.all (fun e => decide (a < e.1)) && Store.wf r

/-- Consecutive keys from `k` on given the values of a list. -/
def Store.writeRun {α : Type} (m : Store α) (k : Nat) : List α → Store α
  | [] => m
  | v :: vs => Store.writeRun (m.write k v) (k + 1) vs

/-! ## One entry of a table -/

/-- A channel. -/
def State.chan (s : State) (j : Fin 256) : Channel := vget s.channels j

/-- A channel replaced. -/
def State.setChan (s : State) (j : Fin 256) (c : Channel) : State :=
  { s with channels := vset s.channels j c }

/-- A field port. -/
def State.port (s : State) (p : FPort) : FieldPort := vget s.ports p

/-- A field port replaced. -/
def State.setPort (s : State) (p : FPort) (x : FieldPort) : State :=
  { s with ports := vset s.ports p x }

/-- A hub map entry. -/
def State.hub (s : State) (h : Fin 16) : HubEntry := vget s.hubs h

/-- A hub map entry replaced. -/
def State.setHub (s : State) (h : Fin 16) (x : HubEntry) : State :=
  { s with hubs := vset s.hubs h x }

/-- A control port. -/
def State.ctl (s : State) : CPort → CtlPort
  | .survey => s.survey
  | .plant => s.plant

/-- A control port replaced. -/
def State.setCtl (s : State) (c : CPort) (x : CtlPort) : State :=
  match c with
  | .survey => { s with survey := x }
  | .plant => { s with plant := x }

/-- The value of a parameter. -/
def State.param (s : State) (i : ParamId) : Nat := s.params.get i

/-! ## Notices -/

/-- A notice kind raised on a port (10, R185): nothing if it is masked or already pending there, else it joins the
pending set as the newest. -/
def CtlPort.raise (x : CtlPort) (k : NoticeKind) : CtlPort :=
  if k ∈ x.mask ∨ k ∈ x.pending then x else { x with pending := x.pending ++ [k] }

/-- A notice kind raised on one control port (10, R185). -/
def State.raise (s : State) (c : CPort) (k : NoticeKind) : State := s.setCtl c ((s.ctl c).raise k)

/-- A notice kind raised on both control ports. -/
def State.raiseBoth (s : State) (k : NoticeKind) : State := (s.raise .survey k).raise .plant k

/-! ## The alert level and its lines -/

/-- The alert record replaced, each line following the level (08, R160). -/
def State.setAlert (s : State) (a : Alert) : State :=
  { s with alert := a, amberLine := a.level != .green, redLine := a.level == .red }

/-! ## Free order choices (log 4) -/

/-- One choice among `n` alternatives: the next number of the tape, reduced; the first alternative on an empty tape. -/
def choose (tape : List Nat) (n : Nat) : Nat × List Nat :=
  match tape with
  | [] => (0, [])
  | t :: ts => (t % n, ts)

/-- A list put in a freely chosen order. -/
def shuffle {α : Type} : Nat → List Nat → List α → List α × List Nat
  | 0, tape, l => (l, tape)
  | _, tape, [] => ([], tape)
  | _, tape, [x] => ([x], tape)
  | fuel + 1, tape, x :: y :: r =>
    let pick := choose tape (r.length + 2)
    let rest := shuffle fuel pick.2 ((x :: y :: r).eraseIdx pick.1)
    ((x :: y :: r).getD pick.1 x :: rest.1, rest.2)

/-- Every member of a list handled in a freely chosen order (R2, R18, R63: the spec gives none). -/
def State.each {α : Type} (s : State) (l : List α) (f : State → α → State) : State :=
  let o := shuffle l.length s.order l
  o.1.foldl f { s with order := o.2 }

end Sys2Proof.Machine
end

