-- ==== Sys2Proof/Machine/Operands.lean ====
section
/-!
DEFINITION. How commands and replies are spelled in bytes: byte order and encodings (12, R198), the link frame and its
CRC (12.2), the receiver's framing of a line (03, R46; 10, R180), the request table (10, R183; 12.3), and the layouts of
records (12.4 to 12.6).
-/

namespace Sys2Proof.Machine

/-! ## Fields -/

/-- An unsigned big-endian field (12, R198). -/
def natOf (bs : List Byte) : Nat := bs.foldl (fun v b => v * 256 + b.toNat) 0

/-- The number in `n` big-endian bytes, its low 8n bits (12, R198). -/
def bytesOf : Nat → Nat → List Byte
  | 0, _ => []
  | n + 1, v => bytesOf n (v / 256) ++ [BitVec.ofNat 8 v]

/-- A signed big-endian field, two's complement (12, R198). -/
def intOf (bs : List Byte) : Int :=
  let v := natOf bs
  if v < 2 ^ (8 * bs.length - 1) then v else (v : Int) - 2 ^ (8 * bs.length)

/-- A signed number in `n` big-endian bytes (12, R198). -/
def bytesOfInt (n : Nat) (v : Int) : List Byte := bytesOf n (v % 2 ^ (8 * n)).toNat

/-- The bytes of a payload from an offset on. -/
def slice (bs : List Byte) (off n : Nat) : List Byte := (bs.drop off).take n

/-- The unsigned field of `n` bytes at an offset. -/
def field (bs : List Byte) (off n : Nat) : Nat := natOf (slice bs off n)

/-- The signed field of `n` bytes at an offset. -/
def fieldInt (bs : List Byte) (off n : Nat) : Int := intOf (slice bs off n)

/-- A yes-or-no value (12.3). -/
def flagByte (b : Bool) : List Byte := bytesOf 1 b.toNat

/-- A yes-or-no code, none for a code that is neither (12.1). -/
def yesNo? : Nat → Option Bool
  | 0 => some false
  | 1 => some true
  | _ => none

/-- A tick, window or ASN field, all 0xFF when undefined (12, R198). -/
def sixOf : Option Nat → List Byte
  | some v => bytesOf 6 v
  | none => List.replicate 6 0xFF

/-- A field that may be absent, behind its presence byte, its bytes 0 when absent (12, R198). -/
def presentOf (n : Nat) : Option Nat → List Byte
  | some v => flagByte true ++ bytesOf n v
  | none => flagByte false ++ bytesOf n 0

/-! ## The link frame -/

/-- One bit of the CRC: shift left, and reduce by 0x1021 when the top bit leaves (12.2). -/
def crcBit (r : BitVec 16) : BitVec 16 :=
  if r.msb then (r <<< 1) ^^^ 0x1021#16 else r <<< 1

/-- One byte taken into the CRC, most significant bit first (12.2: no reflection). -/
def crcByte (r : BitVec 16) (b : Byte) : BitVec 16 :=
  crcBit (crcBit (crcBit (crcBit (crcBit (crcBit (crcBit (crcBit (r ^^^ (b.setWidth 16 <<< 8)))))))))

/-- The CRC of a run of bytes: initial value 0xFFFF, no final inversion (12.2). -/
def crc (bs : List Byte) : BitVec 16 := bs.foldl crcByte 0xFFFF#16

/-- The link frame of a body: sync pair, length, body, CRC over length and body (12.2). -/
def linkFrame (body : List Byte) : List Byte :=
  let covered := bytesOf 2 body.length ++ body
  [0xB6, 0x49] ++ covered ++ bytesOf 2 (crc covered).toNat

/-! ## Framing a line -/

/-- What a receiver finds on its line (03, R46): a frame start, a refused length, a frame whose CRC fails (its stated
length and the bytes taken as body), a frame whose CRC is right (its body). -/
inductive RxEvent where
  | start
  | badLength (len : Nat)
  | badCrc (len : Nat) (body : List Byte)
  | good (body : List Byte)
  deriving DecidableEq, Repr

/-- The receiver at work on bytes (03, R46). Out of a frame it looks for the sync pair 0xB6 0x49. In a frame (the bytes
are those since the sync pair) it reads the length, and ends the frame at a length of 0 or above `max`; else it takes body
and CRC. After a failure it hunts again from the byte after the frame's 0xB6, so the 0x49 and all bytes taken since are
searched. Every event shortens what is left to search, so the fuel of `feed` never runs out. -/
def scan (max : Nat) : Nat → Bool → List Byte → List RxEvent × Receiver
  | 0, _, _ => ([], .hunting false)
  | _ + 1, false, [] => ([], .hunting false)
  | _ + 1, false, [x] => ([], .hunting (x == 0xB6))
  | fuel + 1, false, x :: y :: rest =>
    if x == 0xB6 && y == 0x49 then
      let r := scan max fuel true rest
      (.start :: r.1, r.2)
    else scan max fuel false (y :: rest)
  | fuel + 1, true, got =>
    if got.length < 2 then ([], .receiving got)
    else
      let len := field got 0 2
      if len = 0 ∨ max < len then
        let r := scan max fuel false (0x49 :: got)
        (.badLength len :: r.1, r.2)
      else if got.length < len + 4 then ([], .receiving got)
      else if crc (got.take (len + 2)) = BitVec.ofNat 16 (field got (len + 2) 2) then
        let r := scan max fuel false (got.drop (len + 4))
        (.good (slice got 2 len) :: r.1, r.2)
      else
        let r := scan max fuel false (0x49 :: got)
        (.badCrc len (slice got 2 len) :: r.1, r.2)

/-- A receiver given the next bytes of its line. -/
def feed (max : Nat) (rx : Receiver) (bs : List Byte) : List RxEvent × Receiver :=
  match rx with
  | .hunting half =>
    let buf := if half then 0xB6 :: bs else bs
    scan max (2 * buf.length + 4) false buf
  | .receiving got =>
    let buf := got ++ bs
    scan max (2 * buf.length + 4) true buf

/-- The sync pair (12.2). -/
def syncPair : List Byte := [0xB6, 0x49]

/-! ## Codes (12.1, 12.2, 12.4) -/

/-- Array state codes. -/
def ArrayState.code : ArrayState → Nat
  | .initializing => 0 | .stopped => 1 | .running => 2

/-- Field port state codes. -/
def PortState.code : PortState → Nat
  | .disabled => 0 | .up => 1 | .down => 2 | .failed => 3

/-- Channel state codes. -/
def ChanState.code : ChanState → Nat
  | .off => 0 | .await => 1 | .settling => 2 | .live => 3 | .muted => 4 | .lagging => 5 | .lost => 6

/-- Polarity codes. -/
def Polarity.code : Polarity → Nat
  | .positive => 0 | .negative => 1

/-- Trigger state codes. -/
def TrigState.code : TrigState → Nat
  | .idle => 0 | .armed => 1 | .opened => 2

/-- Alert level codes. -/
def AlertLevel.code : AlertLevel → Nat
  | .green => 0 | .amber => 1 | .red => 2

/-- Event level codes; their order is the order of the levels (R151). -/
def EventLevel.code : EventLevel → Nat
  | .none => 0 | .amber => 1 | .red => 2

/-- Injection state codes. -/
def Injection.code : Injection → Nat
  | .shutIn => 0 | .circulating => 1 | .stimulating => 2

/-- The injection state of a code. -/
def Injection.ofCode : Nat → Option Injection
  | 0 => some .shutIn | 1 => some .circulating | 2 => some .stimulating | _ => none

/-- Dwell codes. -/
def Dwell.code : Dwell → Nat
  | .stopped => 0 | .running _ => 1 | .expired => 2

/-- Standby bank state codes. -/
def StandbyState.code : StandbyState → Nat
  | .empty => 0 | .loading => 1 | .checking => 2 | .pending => 3

/-- Phase codes. -/
def Phase.code : Phase → Nat
  | .none => 0 | .checking => 2 | .pending => 3

/-- Severity codes. -/
def Severity.code : Severity → Nat
  | .fatal => 0 | .nonfatal => 1 | .advisory => 2

/-- The severity of a code; a severity action has one code more, 3 KEEP. -/
def Severity.ofCode : Nat → Option Severity
  | 0 => some .fatal | 1 => some .nonfatal | 2 => some .advisory | _ => none

/-- First motion codes. -/
def Motion.code : Motion → Nat
  | .up => 0 | .down => 1

/-- Run kind codes: the entry codes of STALL and BLIND (12.6). -/
def RunKind.code : RunKind → Nat
  | .stall => 4 | .blind => 3

/-- Reply status codes (12.2). -/
def Status.code : Status → Nat
  | .ok => 0x00 | .clamped => 0x01 | .accepted => 0x02 | .busy => 0x03 | .state => 0x05 | .range => 0x06
  | .permission => 0x07 | .notReady => 0x08 | .unknown => 0x09 | .form => 0x0A | .stale => 0x0B | .tooLate => 0x0C
  | .nothing => 0x0D

/-- Notice codes (12.4). -/
def NoticeKind.code : NoticeKind → Nat
  | .start => 0x01 | .portReset => 0x02 | .event => 0x03 | .alert => 0x04 | .channel => 0x05 | .fieldError => 0x06
  | .journalHeld => 0x07 | .bankDone => 0x08 | .plantLink => 0x09 | .injection => 0x0A

/-- Every notice kind, in the order of the codes. -/
def NoticeKind.all : List NoticeKind :=
  [.start, .portReset, .event, .alert, .channel, .fieldError, .journalHeld, .bankDone, .plantLink, .injection]

/-- Whether a port receives a notice kind (10, R185). -/
def NoticeKind.receivedBy (k : NoticeKind) : CPort → Bool
  | .survey => true
  | .plant => k == .start || k == .portReset || k == .event || k == .alert

/-- Whether a notice kind can be masked (10, R185). -/
def NoticeKind.maskable (k : NoticeKind) : Bool := !(k == .start || k == .portReset)

/-! ## Sets (12.1) -/

/-- The members of a set field: those whose bit is 1. -/
def membersOf {α : Type} (l : List α) (bit : α → Nat) (v : Nat) : List α := l.filter fun k => v.testBit (bit k)

/-- A set as a bit mask. -/
def maskOf {α : Type} (bit : α → Nat) (l : List α) : Nat := l.foldl (fun v k => v ||| 2 ^ bit k) 0

/-- A set of error kinds, two bytes. -/
def errorSetOf (l : List ErrKind) : List Byte := bytesOf 2 (maskOf (fun k => k.place.val) l)

/-- The error kinds a two-byte mask names, none for a mask with a bit that names no kind (12, R198). -/
def errorSet? (v : Nat) : Option (List ErrKind) :=
  if v < 2 ^ 10 then some (membersOf ErrKind.all (fun k => k.place.val) v) else none

/-- A set of notice kinds, two bytes: bit number the notice code minus 1. -/
def noticeSetOf (l : List NoticeKind) : List Byte := bytesOf 2 (maskOf (fun k => k.code - 1) l)

/-- The notice kinds a two-byte mask names, none for a mask with a bit that names no kind. -/
def noticeSet? (v : Nat) : Option (List NoticeKind) :=
  if v < 2 ^ 10 then some (membersOf NoticeKind.all (fun k => k.code - 1) v) else none

/-- A set of alarms, one byte. -/
def alarmByte (a : Alarms) : List Byte := bytesOf 1 (a.noisy.toNat + 2 * a.quiet.toNat + 4 * a.clipped.toNat)

/-- The alarms a mask names, none for a mask with a bit that names no alarm. -/
def alarmSet? (v : Nat) : Option Alarms :=
  if v < 8 then some ⟨v.testBit 0, v.testBit 1, v.testBit 2⟩ else none

/-! ## Requests (10, R183; 12.3) -/

/-- The requests of the part. -/
inductive Req where
  | identify | status | paramGet | paramSet | noticeMaskSet | noticeMaskClear | arrayStart | arrayStop
  | channelConfig | channelEnable | channelDisable | channelQuery | channelAlarmClear
  | portEnable | portDisable | hubMapSet | hubMapClear | hubMapGet | errorReport | errorConfig | errorClear
  | gridSet | gridGet | bankWrite | bankRead | bankClear | bankActivate | bankAbort
  | zoneSet | zoneGet | eventFetch | eventAck | alertStatus | alertAck | injectionSet
  | journalRead | journalRelease | journalClear
  deriving DecidableEq, Repr

/-- Request codes (12.3). -/
def Req.code : Req → Byte
  | .identify => 0x01 | .status => 0x02 | .paramGet => 0x03 | .paramSet => 0x04 | .noticeMaskSet => 0x05
  | .noticeMaskClear => 0x06 | .arrayStart => 0x10 | .arrayStop => 0x11 | .channelConfig => 0x20
  | .channelEnable => 0x21 | .channelDisable => 0x22 | .channelQuery => 0x23 | .channelAlarmClear => 0x24
  | .portEnable => 0x30 | .portDisable => 0x31 | .hubMapSet => 0x32 | .hubMapClear => 0x33 | .hubMapGet => 0x34
  | .errorReport => 0x38 | .errorConfig => 0x39 | .errorClear => 0x3A | .gridSet => 0x40 | .gridGet => 0x41
  | .bankWrite => 0x42 | .bankRead => 0x43 | .bankClear => 0x44 | .bankActivate => 0x45 | .bankAbort => 0x46
  | .zoneSet => 0x50 | .zoneGet => 0x51 | .eventFetch => 0x60 | .eventAck => 0x61 | .alertStatus => 0x68
  | .alertAck => 0x69 | .injectionSet => 0x6A | .journalRead => 0x70 | .journalRelease => 0x71
  | .journalClear => 0x72

/-- Every request of the part. -/
def Req.all : List Req :=
  [.identify, .status, .paramGet, .paramSet, .noticeMaskSet, .noticeMaskClear, .arrayStart, .arrayStop,
   .channelConfig, .channelEnable, .channelDisable, .channelQuery, .channelAlarmClear,
   .portEnable, .portDisable, .hubMapSet, .hubMapClear, .hubMapGet, .errorReport, .errorConfig, .errorClear,
   .gridSet, .gridGet, .bankWrite, .bankRead, .bankClear, .bankActivate, .bankAbort,
   .zoneSet, .zoneGet, .eventFetch, .eventAck, .alertStatus, .alertAck, .injectionSet,
   .journalRead, .journalRelease, .journalClear]

/-- The request of a code, none for a code that is none of the part's (10, R182 check 1). -/
def Req.ofCode (b : Byte) : Option Req := Req.all.find? fun r => r.code == b

/-- Whether a request may be used on a port (10, R183). -/
def Req.allowed : Req → CPort → Bool
  | .identify, _ | .status, _ | .paramGet, _ | .eventFetch, _ | .alertStatus, _ | .alertAck, _
  | .noticeMaskSet, _ | .noticeMaskClear, _ => true
  | .injectionSet, c => c == .plant
  | _, c => c == .survey

/-- The payload length a request must have (12.3); for BANK WRITE 6 + n with n the count in the payload, a payload too
short to hold the count being wrong (R199). -/
def Req.lengthOk (r : Req) (payload : List Byte) : Bool :=
  match r with
  | .bankWrite => decide (6 ≤ payload.length) && payload.length == 6 + field payload 4 2
  | .paramSet | .errorConfig => payload.length == 5
  | .paramGet | .portEnable | .portDisable | .hubMapClear | .hubMapGet | .errorReport | .zoneGet | .injectionSet =>
    payload.length == 1
  | .noticeMaskSet | .noticeMaskClear | .channelEnable | .channelDisable | .channelQuery => payload.length == 2
  | .channelConfig => payload.length == 14
  | .channelAlarmClear => payload.length == 3
  | .hubMapSet => payload.length == 6
  | .errorClear | .eventFetch | .eventAck | .alertAck | .journalRead => payload.length == 4
  | .gridSet => payload.length == 27
  | .bankRead => payload.length == 7
  | .zoneSet => payload.length == 21
  | .identify | .status | .arrayStart | .arrayStop | .gridGet | .bankClear | .bankActivate | .bankAbort
  | .alertStatus | .journalRelease | .journalClear => payload.length == 0

/-- The requests answered in INITIALIZING as in every state (11, R195). -/
def Req.duringInit (r : Req) : Bool :=
  r == .identify || r == .status || r == .noticeMaskSet || r == .noticeMaskClear

/-! ## Layouts -/

/-- A channel's configuration in the layout of CHANNEL CONFIG (12.3). -/
def ChanConfig.bytes (c : ChanConfig) : List Byte :=
  bytesOf 1 c.weight ++ bytesOf 1 c.polarity.code ++ bytesOf 3 c.clip ++ bytesOf 3 c.noise ++ bytesOf 3 c.quiet ++
    flagByte c.autoMute

/-- An outcome record in the layout of BANK DONE, the detail fields its outcome does not use being 0 (12.4). -/
def OutcomeRec.bytes : OutcomeRec → List Byte
  | .empty => bytesOf 1 0 ++ bytesOf 2 0 ++ bytesOf 1 0 ++ bytesOf 2 0 ++ bytesOf 1 0
  | .swapped serial d => bytesOf 1 1 ++ bytesOf 2 serial ++ bytesOf 1 d ++ bytesOf 2 0 ++ bytesOf 1 0
  | .incomplete v => bytesOf 1 2 ++ bytesOf 2 0 ++ bytesOf 1 0 ++ bytesOf 2 v ++ bytesOf 1 0
  | .aborted ph => bytesOf 1 3 ++ bytesOf 2 0 ++ bytesOf 1 0 ++ bytesOf 2 0 ++ bytesOf 1 ph.code

/-- The six thresholds of a zone in the layout of ZONE SET (12.3). -/
def Threshold.bytes (t : Threshold) : List Byte := bytesOf 2 t.amber ++ bytesOf 2 t.red

/-- A zone rule in the layout of ZONE SET, behind the rule number (12.3). -/
def ZoneRule.bytes (z : ZoneRule) : List Byte :=
  flagByte z.enabled ++ bytesOf 1 z.ix0 ++ bytesOf 1 z.ix1 ++ bytesOf 1 z.iy0 ++ bytesOf 1 z.iy1 ++ bytesOf 1 z.iz0 ++
    bytesOf 1 z.iz1 ++ flagByte z.suppress ++ z.shutIn.bytes ++ z.circulating.bytes ++ z.stimulating.bytes

/-- A pick (12.5). -/
def Pick.bytes (p : Pick) : List Byte :=
  bytesOf 1 p.channel.val ++ bytesOfInt 1 p.offset ++ bytesOf 1 p.c ++ bytesOf 1 p.motion.code

/-- An event record (12.5). -/
def EventRecord.bytes (e : EventRecord) : List Byte :=
  bytesOf 4 e.sequence ++ bytesOf 2 e.serial ++ bytesOf 6 e.originTick ++ bytesOf 2 e.voxel ++ bytesOf 1 e.ix ++
    bytesOf 1 e.iy ++ bytesOf 1 e.iz ++ bytesOf 2 e.bBest ++ bytesOf 2 e.n ++ bytesOf 2 e.weightSum ++ bytesOf 2 e.k ++
    bytesOf 1 e.openCount ++ bytesOf 1 e.zone ++ bytesOf 1 e.injection.code ++ bytesOf 1 e.level.code ++
    bytesOf 1 (e.truncated.toNat + 2 * e.limit.toNat + 4 * e.rehearsal.toNat) ++ bytesOf 1 e.picks.length ++
    bytesOf 1 0 ++ e.picks.flatMap Pick.bytes

/-- The kind code and the content of a journal entry (12.6). -/
def EntryBody.bytes : EntryBody → List Byte
  | .quiet n => bytesOf 1 1 ++ bytesOf 1 n
  | .peak w v o b k n => bytesOf 1 2 ++ bytesOf 6 w ++ bytesOf 2 v ++ bytesOf 1 o ++ bytesOf 2 b ++ bytesOf 2 k ++ bytesOf 2 n
  | .blind w n => bytesOf 1 3 ++ bytesOf 6 w ++ bytesOf 2 n
  | .stall w l => bytesOf 1 4 ++ bytesOf 6 w ++ bytesOf 2 l
  | .slip f n => bytesOf 1 5 ++ bytesOf 6 f ++ bytesOf 6 n
  | .trigger o n w r => bytesOf 1 6 ++ bytesOf 1 o.code ++ bytesOf 1 n.code ++ bytesOf 6 w ++ flagByte r
  | .event q l => bytesOf 1 7 ++ bytesOf 4 q ++ bytesOf 1 l.code
  | .suppressed v b => bytesOf 1 8 ++ bytesOf 2 v ++ bytesOf 2 b
  | .evicted q => bytesOf 1 9 ++ bytesOf 4 q
  | .dropped q => bytesOf 1 10 ++ bytesOf 4 q
  | .bank s d => bytesOf 1 11 ++ bytesOf 2 s ++ bytesOf 1 d
  | .channel j o n => bytesOf 1 12 ++ bytesOf 1 j.val ++ bytesOf 1 o.code ++ bytesOf 1 n.code
  | .run stop => bytesOf 1 13 ++ flagByte stop
  | .repeated k t => bytesOf 1 14 ++ bytesOf 1 k.code ++ bytesOf 4 t
  | .resumed => bytesOf 1 15

/-- A journal entry: 24 bytes, the part its kind does not use being 0 (12.6). -/
def Entry.bytes (e : Entry) : List Byte :=
  let bs := bytesOf 4 e.serial ++ e.body.bytes
  bs ++ List.replicate (24 - bs.length) 0

/-- The body of a REPLY (12.2). -/
def Reply.body (r : Reply) : List Byte := [0x03, r.tag, r.code] ++ bytesOf 1 r.status.code ++ r.payload

end Sys2Proof.Machine
end

