-- ==== Sys2Proof/Machine/Flags.lean ====
section
/-!
DEFINITION. The conditions the part computes from its state: the held range and readiness, due, the awaited set, clip,
noise and quiet, the summaries of an error log, and what a bank scan finds.
-/

namespace Sys2Proof.Machine

/-! ## Channels -/

/-- The states in which a channel has a conditioning record (01, R1). -/
def ChanState.conditioned : ChanState → Bool
  | .settling | .live | .lagging | .muted => true
  | .off | .await | .lost => false

/-- The oldest held tick: the larger of the restart tick and complete-through − 1023; none while the held range is empty
(01, R15). -/
def CondRec.oldestHeld (r : CondRec) : Option Nat :=
  r.completeThrough.map fun k => max r.restartTick (k + 1 - Config.ringSlots)

/-- The complete-through of a channel, none without a record (01, R1). -/
def Channel.completeThrough (c : Channel) : Option Nat := c.cond.bind CondRec.completeThrough

/-- The oldest held tick of a channel (01, R15). -/
def Channel.oldestHeld (c : Channel) : Option Nat := c.cond.bind CondRec.oldestHeld

/-- The clip condition of a record: a clipped tick among the newest complete tick and the 125 before it (01, R19). -/
def CondRec.clipActive (r : CondRec) : Bool :=
  match r.lastClipped, r.completeThrough with
  | some q, some k => decide (k - q ≤ 125)
  | _, _ => false

/-- The clip condition of a channel, absent without a record. -/
def Channel.clipActive (c : Channel) : Bool :=
  match c.cond with
  | some r => r.clipActive
  | none => false

/-- NOISY as a raw condition: the noise level is not 0 and the LTA in counts is at least it (01, R20). -/
def noisyRaw (level lta : Nat) : Bool := decide (level ≠ 0 ∧ level ≤ lta / 256)

/-- QUIET as a raw condition: the quiet level is not 0 and the LTA in counts is at most it (01, R20). -/
def quietRaw (level lta : Nat) : Bool := decide (level ≠ 0 ∧ lta / 256 ≤ level)

/-- A ring read: the slot of a tick if it holds that tick, else absent (01, R16). -/
def Ring.at (ring : Ring) (t : Nat) : Option Slot :=
  match Store.read ring (t % Config.ringSlots) with
  | some slot => if slot.tick = t then some slot else none
  | none => none

/-! ## Readiness, the awaited set, due (06) -/

/-- Ready for window `w` under a largest delay `d`: the held range covers 16w to 16w + 15 + d (06, R102). -/
def Channel.ready (c : Channel) (w d : Nat) : Bool :=
  match c.oldestHeld, c.completeThrough with
  | some o, some k => decide (o ≤ 16 * w ∧ 16 * w + 15 + d ≤ k)
  | _, _ => false

/-- A member of the awaited set of window `w`: LIVE, of nonzero weight in force, oldest held tick at or below 16w
(06, R103). -/
def Channel.member (c : Channel) (w : Nat) : Bool :=
  c.state == .live && c.weightInForce != 0 &&
    match c.oldestHeld with
    | some o => decide (o ≤ 16 * w)
    | none => false

/-- A channel that makes window `w` due (06, R104). -/
def Channel.makesDue (c : Channel) (w d : Nat) : Bool :=
  c.state.conditioned &&
    match c.completeThrough with
    | some k => decide (16 * w + 15 + d ≤ k)
    | none => false

/-- The awaited set A(F) in ascending channel order, empty while the front is undefined (06, R103). -/
def State.awaited (s : State) : List (Fin 256 × Channel) :=
  match s.sched.front with
  | some f => (enumFin s.channels).filter fun e => e.2.member f
  | none => []

/-- The members of A(F) that are ready for the front window under the active bank's D_max. -/
def State.readyMembers (s : State) : List (Fin 256 × Channel) :=
  s.awaited.filter fun e => e.2.ready (s.sched.front.getD 0) s.banks.dMax

/-- The members of A(F) that are not ready. -/
def State.unreadyMembers (s : State) : List (Fin 256 × Channel) :=
  s.awaited.filter fun e => !e.2.ready (s.sched.front.getD 0) s.banks.dMax

/-- The front window is due by some channel (06, R104). -/
def State.due (s : State) : Bool :=
  match s.sched.front with
  | some f => s.channels.toArray.toList.any fun c => c.makesDue f s.banks.dMax
  | none => false

/-- The front window is due by one channel (06, R104, at a store report). -/
def State.dueBy (s : State) (j : Fin 256) : Bool :=
  match s.sched.front with
  | some f => (s.chan j).makesDue f s.banks.dMax
  | none => false

/-- Channel `j` is a member of A(F). -/
def State.isMember (s : State) (j : Fin 256) : Bool :=
  match s.sched.front with
  | some f => (s.chan j).member f
  | none => false

/-- Lost at a front `f`: SETTLING, LAGGING or MUTED with its complete-through below 16f minus the lost depth, a record
without a complete tick counting as complete through its restart tick − 1 (02, R35). -/
def Channel.lostAt (c : Channel) (f depth : Nat) : Bool :=
  (c.state == .settling || c.state == .lagging || c.state == .muted) &&
    match c.cond with
    | some r =>
      match r.completeThrough with
      | some k => decide (k + depth < 16 * f)
      | none => decide (r.restartTick + depth < 16 * f + 1)
    | none => false

/-! ## Windows -/

/-- n of a window: the number of contributors (06, R110). -/
def countOf (l : List Contributor) : Nat := l.length

/-- N of a window: the sum of the contributors' weights (06, R110). -/
def weightOf (l : List Contributor) : Nat := (l.map fun e => e.2).sum

/-! ## Grid and banks -/

/-- V = nx × ny × nz (05, R82). -/
def Grid.voxels (g : Grid) : Nat := g.nx * g.ny * g.nz

/-- The coordinates of a voxel index (05, R82: index = ix + nx × (iy + ny × iz)). -/
def Grid.coords (g : Grid) (v : Nat) : Nat × Nat × Nat := (v % g.nx, v / g.nx % g.ny, v / (g.nx * g.ny))

/-- The key of an entry of a bank: voxel v, channel j (05, R85). -/
def bankKey (v j : Nat) : Nat := v * Config.numChannels + j

/-- The delay of an entry, none if unwritten (05, R85, R86). -/
def Bank.delay? (b : Bank) (v j : Nat) : Option Byte := Store.read b (bankKey v j)

/-- The delay of an entry as a number; 0 for an unwritten entry (R88; an active bank has none, log 25). -/
def Bank.delay (b : Bank) (v j : Nat) : Nat :=
  match b.delay? v j with
  | some d => d.toNat
  | none => 0

/-- The written entries of a voxel: its written map is full when there are 256 (05, R85). -/
def Bank.written (b : Bank) (v : Nat) : Nat := b.countP fun e => e.1 / Config.numChannels == v

/-- The first voxel of the grid whose written map is not full (05, R92). -/
def Bank.firstIncomplete (b : Bank) (voxels : Nat) : Option Nat :=
  (List.range voxels).find? fun v => b.written v != Config.numChannels

/-- The largest delay over the voxels of the grid (05, R92). -/
def Bank.largest (b : Bank) (voxels : Nat) : Nat :=
  b.foldl (fun m e => if e.1 < voxels * Config.numChannels then max m e.2.toNat else m) 0

/-- The phase of the activation in flight: the standby state when CHECKING or PENDING, else NONE (05, R90; log 26). -/
def BankCtl.phase (b : BankCtl) : Phase :=
  match b.standbyState with
  | .checking => .checking
  | .pending => .pending
  | .empty | .loading => .none

/-! ## Error logs -/

/-- The record of a kind. -/
def ErrorLog.kind (l : ErrorLog) (k : ErrKind) : KindRec := vget l.kinds k.place

/-- The record of a kind replaced. -/
def ErrorLog.setKind (l : ErrorLog) (k : ErrKind) (r : KindRec) : ErrorLog :=
  { l with kinds := vset l.kinds k.place r }

/-- The unmasked kinds whose status flags are set (04, R78). -/
def ErrorLog.unmaskedSet (l : ErrorLog) : List ErrKind :=
  ErrKind.all.filter fun k => (l.kind k).flag && !(l.kind k).masked

/-- Uncorrectable pending: an unmasked kind of severity FATAL or NONFATAL has its flag set (04, R72). -/
def ErrorLog.uncorrectable (l : ErrorLog) : Bool := l.unmaskedSet.any fun k => (l.kind k).severity != .advisory

/-- Correctable pending: an unmasked kind of severity ADVISORY has its flag set (04, R72). -/
def ErrorLog.correctable (l : ErrorLog) : Bool := l.unmaskedSet.any fun k => (l.kind k).severity == .advisory

/-- The summaries byte (12.4). -/
def ErrorLog.summaries (l : ErrorLog) : List Byte := bytesOf 1 (l.uncorrectable.toNat + 2 * l.correctable.toNat)

/-- The first-error byte: the bit number of the kind, 0xFF when empty (12.4). -/
def ErrorLog.firstByte (l : ErrorLog) : List Byte :=
  match l.first with
  | some k => bytesOf 1 k.place.val
  | none => [0xFF]

/-- The LINK_DOWN condition of a port: active from the move to DOWN until the port leaves DOWN (04, R76; log 26). -/
def FieldPort.linkDownActive (x : FieldPort) : Bool := x.state == .down

/-! ## Alert and journal -/

/-- The time left of a RUNNING dwell in whole seconds, rounded up (08, R163). A STOPPED or EXPIRED dwell, for which R163 names
no time left, shows 0 (log 38). -/
def Dwell.secondsLeft : Dwell → Nat
  | .running ms => (ms + 999) / 1000
  | .stopped | .expired => 0

/-- No entry is written: the journal is HELD (09, R174) or its serials are used up (R168). -/
def Journal.silent (j : Journal) : Bool := j.held || j.spent

/-- The serial after the last one written (09, R168). -/
def Journal.afterLast (j : Journal) : Nat := if j.spent then j.next + 1 else j.next

/-- OVERWRITTEN for a reader naming serial `q`: an entry written with a serial at or above q is no longer held
(09, R175; log 21). -/
def Journal.overwritten (j : Journal) (q : Nat) : Bool :=
  decide (max q 1 < (match j.entries with
    | e :: _ => e.serial
    | [] => j.afterLast))

end Sys2Proof.Machine
end

