-- ==== Sys2Proof/Machine/Control.lean ====
section
/-!
DEFINITION. The shared operations of the control ports (10): the payload of a notice, read when it is sent; the choice of
the transmitter; the taking of a request with the checks of R182; and the frame of every step (RESET, transmit choice).
-/

namespace Sys2Proof.Machine

/-! ## Notices as they are sent (12.4) -/

/-- The vendor code, part code and revision (10, R192). -/
def identityBytes : List Byte := bytesOf 2 0x54A3 ++ bytesOf 2 0x7200 ++ bytesOf 1 3

/-- The fields of ALERT STATUS, also the ALERT payload (08, R161, R163; 12.4). -/
def Alert.bytes (a : Alert) : List Byte :=
  bytesOf 1 a.level.code ++ bytesOf 4 a.cause ++ flagByte a.acknowledged ++ bytesOf 1 a.dwell.code ++
    bytesOf 4 a.dwell.secondsLeft ++ bytesOf 1 a.injection.code

/-- The EVENT payload: last queued summary, records held, oldest and newest sequence, 0 marking an empty summary or queue
(08, R152; 12.4). -/
def EventQueue.noticeBytes (q : EventQueue) : List Byte :=
  (match q.last with
    | some m => bytesOf 4 m.sequence ++ bytesOf 1 m.level.code ++ bytesOf 1 m.zone ++ bytesOf 2 m.bBest
    | none => bytesOf 4 0 ++ bytesOf 1 0 ++ bytesOf 1 0 ++ bytesOf 2 0) ++
    bytesOf 1 q.records.length ++ bytesOf 4 ((q.records.head?.map fun e => e.sequence).getD 0) ++
    bytesOf 4 ((q.records.getLast?.map fun e => e.sequence).getD 0)

/-- The channels whose changed flag is set, in ascending order (02, R42). -/
def State.changedChannels (s : State) : List (Fin 256 × Channel) :=
  (enumFin s.channels).filter fun e => e.2.changed

/-- The CHANNEL payload (02, R42; 12.4). -/
def State.channelNoticeBytes (s : State) : List Byte :=
  bytesOf 2 s.changedChannels.length ++
    s.changedChannels.flatMap fun e => bytesOf 1 e.1.val ++ bytesOf 1 e.2.state.code ++ alarmByte e.2.alarms

/-- The FIELD ERROR payload (04, R78; 12.4). -/
def State.fieldErrorNoticeBytes (s : State) : List Byte :=
  s.ports.toArray.toList.flatMap fun x =>
    bytesOf 1 x.state.code ++ errorSetOf x.log.unmaskedSet ++ x.log.summaries ++ x.log.firstByte

/-- The JOURNAL HELD payload (09, R174; 12.4). -/
def Journal.noticeBytes (j : Journal) : List Byte :=
  flagByte j.held ++ bytesOf 4 (j.cause.getD 0) ++ bytesOf 4 ((j.entries.head?.map fun e => e.serial).getD 0) ++
    bytesOf 4 ((j.entries.getLast?.map fun e => e.serial).getD 0)

/-- The BANK DONE payload (05, R97; 12.4). -/
def BankCtl.noticeBytes (b : BankCtl) : List Byte :=
  b.outcome.bytes ++ bytesOf 1 b.standbyState.code ++ bytesOf 1 b.phase.code ++ bytesOf 2 b.activeSerial ++
    bytesOf 1 b.dMax

/-- The payload of a notice of a kind sent on a port, read from the part as it stands (10, R184, R185; 12.4). -/
def State.noticePayload (s : State) (c : CPort) : NoticeKind → List Byte
  | .start => identityBytes ++ bytesOf 1 s.array.code
  | .portReset => bytesOf 2 (s.ctl c).resets
  | .event => s.queue.noticeBytes
  | .alert => s.alert.bytes
  | .channel => s.channelNoticeBytes
  | .fieldError => s.fieldErrorNoticeBytes
  | .journalHeld => s.journal.noticeBytes
  | .bankDone => s.banks.noticeBytes
  | .plantLink =>
    bytesOf 2 s.plant.resets ++ noticeSetOf s.plant.mask ++ bytesOf 1 s.alert.level.code ++ bytesOf 4 s.alert.cause
  | .injection => bytesOf 1 s.alert.injection.code

/-- The changed flags cleared when a CHANNEL notice is sent (02, R42). -/
def State.clearChanged (s : State) : State :=
  { s with channels := vmap (fun c => { c with changed := false }) s.channels }

/-! ## Transmitting (10, R184) -/

/-- A frame put on the transmitter of a port whose record is otherwise `x`. -/
def CtlPort.send (x : CtlPort) (body : List Byte) (isReply : Bool) : CtlPort :=
  { x with tx := some ⟨linkFrame body, isReply⟩ }

/-- The BUSY reply of a refused request frame (10, R181). -/
def Refused.reply (r : Refused) : Reply := ⟨r.tag, r.code, .busy, []⟩

/-- The oldest BUSY reply begins its transmission, its tag leaving the refusals (10, R184). -/
def CtlPort.sendRefusal (x : CtlPort) (r : Refused) (rest : List Refused) : CtlPort :=
  CtlPort.send
    { x with
      refusals := rest
      reply := x.reply.map fun rp => { rp with ahead := rp.ahead - 1 } }
    r.reply.body false

/-- The reply of the reply place begins its transmission (10, R184). -/
def CtlPort.sendReply (x : CtlPort) (rp : ReplyPlace) : CtlPort :=
  CtlPort.send { x with reply := some { rp with begun := true } } rp.reply.body true

/-- The oldest pending notice begins its transmission: its kind leaves the pending set, its payload is read now, and a
CHANNEL notice clears the changed flags it listed (10, R184; 02, R42). -/
def State.sendNotice (s : State) (c : CPort) (k : NoticeKind) (rest : List NoticeKind) : State :=
  let body := [0x04] ++ bytesOf 1 k.code ++ s.noticePayload c k
  let s1 := s.setCtl c (CtlPort.send { s.ctl c with pending := rest } body false)
  if k = .channel then s1.clearChanged else s1

/-- The choice of an idle transmitter (10, R184): of the waiting replies the one formed first, else the notice raised
longest ago, else nothing. A busy transmitter goes on. A reply that waits when a frame begun before a port reset ends is sent
ahead of PORT RESET, though R188 calls that notice the first frame begun after the reset: the model follows R184, a choice of
its own (log 46). -/
def State.transmit (s : State) (c : CPort) : State :=
  let x := s.ctl c
  if x.tx.isSome then s
  else
    match x.reply, x.refusals, x.pending with
    | some rp, r :: rest, _ =>
      if rp.ahead = 0 then s.setCtl c (x.sendReply rp) else s.setCtl c (x.sendRefusal r rest)
    | some rp, [], _ => s.setCtl c (x.sendReply rp)
    | none, r :: rest, _ => s.setCtl c (x.sendRefusal r rest)
    | none, [], k :: rest => s.sendNotice c k rest
    | none, [], [] => s

/-- The choices of both transmitters, made at the end of a step (log 9). -/
def State.transmitBoth (s : State) : State := (s.transmit .survey).transmit .plant

/-! ## Steps -/

/-- A step of the part: nothing while RESET is asserted (11, R194), else its effect and then the transmit choices. -/
def whole (f : State → State) (s : State) : State :=
  if s.resetAsserted then s else (f s).transmitBoth

/-- A command answered with the state after its step. -/
def answer (f : State → State) (s : State) : Host.Outcome State Fault Refusal := .next (whole f s)

/-! ## Taking a request (10, R182) -/

/-- What an owning block answers: status, payload of the reply, and the part after its effect. -/
structure Response where
  status : Status
  payload : List Byte
  state : State
  deriving DecidableEq, Repr

/-- A refusal by the owner: a status without payload, nothing changed. -/
def refuse (st : Status) (s : State) : Response := ⟨st, [], s⟩

/-- The reply formed by a request taken on a port (10, R182, R184): it enters the reply place behind the refusals that
wait already. -/
def State.putReply (s : State) (c : CPort) (r : Reply) : State :=
  let x := s.ctl c
  s.setCtl c { x with reply := some ⟨r, false, x.refusals.length⟩ }

/-- The oldest request leaves the receive queue. -/
def State.popRequest (s : State) (c : CPort) : State :=
  let x := s.ctl c
  s.setCtl c { x with queue := x.queue.tail }

/-- The checks ahead of the owner's own (10, R182; 12, R199; 11, R195), then the owner. -/
def checked (c : CPort) (req : Req) (payload : List Byte) (owner : List Byte → State → Response) (s : State) :
    Response :=
  if !req.allowed c then refuse .permission s
  else if !req.lengthOk payload then refuse .form s
  else if s.array = .initializing ∧ !req.duringInit then refuse .notReady s
  else owner payload s

/-- The oldest request of a port, when the port can take it: the queue is not empty and the reply place is empty
(10, R182). -/
def State.takeable (s : State) (c : CPort) : Option Request :=
  match (s.ctl c).reply, (s.ctl c).queue with
  | none, r :: _ => some r
  | _, _ => none

/-- A request of the part taken on a port. Nothing happens if the port can take no request or its oldest is another one
(log 2). -/
def takeRequest (c : CPort) (req : Req) (owner : List Byte → State → Response) (s : State) : State :=
  match s.takeable c with
  | some r =>
    if r.code = req.code then
      let resp := checked c req r.payload owner (s.popRequest c)
      resp.state.putReply c ⟨r.tag, r.code, resp.status, resp.payload⟩
    else s
  | none => s

/-- A request whose code is none of the part's taken on a port (10, R182 check 1). -/
def takeUnknown (c : CPort) (s : State) : State :=
  match s.takeable c with
  | some r =>
    if Req.ofCode r.code = none then (s.popRequest c).putReply c ⟨r.tag, r.code, .unknown, []⟩ else s
  | none => s

/-- A request step answered. -/
def answerRequest (c : CPort) (req : Req) (owner : List Byte → State → Response) (s : State) :
    Host.Outcome State Fault Refusal :=
  answer (takeRequest c req owner) s

end Sys2Proof.Machine
end

