-- ==== Sys2Proof/Machine/ErrorLog.lean ====
section
/-!
DEFINITION. The field error log (04): an occurrence with its capture, notice and port failure, the header log of a frame,
and the meanings of the three requests of the log.
-/

namespace Sys2Proof.Machine

/-! ## Header logs (04, R75) -/

/-- A field of a body, present when the body carries every byte of it. -/
def fieldIfThere (body : List Byte) (off n : Nat) : Option Nat :=
  if off + n ≤ body.length then some (field body off n) else none

/-- The header of a frame: the stated length, and the fields as far as the bytes taken as body reach. -/
def headerOf (len : Nat) (body : List Byte) : HeaderLog where
  length := some len
  cls := fieldIfThere body 0 1
  hubId := fieldIfThere body 1 1
  sequence := fieldIfThere body 3 2
  firstAsn := fieldIfThere body 5 6
  samples := fieldIfThere body 11 1
  channels := fieldIfThere body 12 1

/-- The header of a frame whose body was received whole. -/
def headerOfBody (body : List Byte) : HeaderLog := headerOf body.length body

/-- The header log of LINK_DOWN: every field absent. -/
def HeaderLog.absent : HeaderLog := ⟨none, none, none, none, none, none, none⟩

/-! ## Port failure (03, R51) -/

/-- The slip requests of a port withdrawn (06, R118). -/
def State.withdraw (s : State) (p : FPort) : State :=
  { s with sched := { s.sched with slips := s.sched.slips.filter fun r => r.port != p } }

/-- What a move of a port to FAILED (R51) or DISABLED (R53) does to its frames: reception is abandoned, the link timer
stops, the waiting frame is discarded, and a frame that waits for a slip is discarded with its slip wait. Any other frame
in the handling place completes its handling. -/
def FieldPort.stopped (x : FieldPort) (st : PortState) : FieldPort :=
  { x with
    state := st
    rx := .hunting false
    linkTimer := none
    handling := if x.slipWait then none else x.handling
    waiting := none
    slipWait := false }

/-- A port taken to FAILED or DISABLED, its request for a slip withdrawn (R51, R53). -/
def State.stopPort (s : State) (p : FPort) (st : PortState) : State :=
  (s.setPort p ((s.port p).stopped st)).withdraw p

/-! ## Occurrences -/

/-- The status flag set and the count increased, saturating (04, R70). -/
def KindRec.occur (r : KindRec) : KindRec :=
  { r with flag := true, count := if r.count < Config.max16 then r.count + 1 else r.count }

/-- The first-error record and the header log filled by an unmasked uncorrectable occurrence that finds them empty
(04, R73, R74). -/
def ErrorLog.capture (l : ErrorLog) (k : ErrKind) (h : HeaderLog) : ErrorLog :=
  if (l.kind k).masked || (l.kind k).severity == .advisory || l.first.isSome then l
  else { l with first := some k, header := some h }

/-- An occurrence in the log: flag and count (R70), then the capture (R74). -/
def ErrorLog.occur (l : ErrorLog) (k : ErrKind) (h : HeaderLog) : ErrorLog :=
  (l.setKind k (l.kind k).occur).capture k h

/-- An occurrence of a kind on a port (04, R70 to R78), its effects in the order of R77: flag and count, the capture, the
FIELD ERROR notice of an unmasked kind whose flag was clear (R78), and the move to FAILED of a FATAL kind (R51). -/
def State.logError (s : State) (p : FPort) (k : ErrKind) (h : HeaderLog) : State :=
  let before := (s.port p).log.kind k
  let s1 := s.setPort p { s.port p with log := (s.port p).log.occur k h }
  let s2 := if !before.masked && !before.flag then s1.raise .survey .fieldError else s1
  if before.severity = .fatal then s2.stopPort p .failed else s2

/-! ## Requests (04.8) -/

/-- The field port of a port byte, none above 3. -/
def fport? (v : Nat) : Option FPort := if h : v < 4 then some ⟨v, h⟩ else none

/-- Mask codes: 0 MASKED, 1 UNMASKED, as the mask action codes them (12.1; log 15). -/
def maskCode (masked : Bool) : Nat := if masked then 0 else 1

/-- The header log, each field behind its presence byte (12, R198; log 15). -/
def headerBytes (h : Option HeaderLog) : List Byte :=
  let x := h.getD HeaderLog.absent
  presentOf 2 x.length ++ presentOf 1 x.cls ++ presentOf 1 x.hubId ++ presentOf 2 x.sequence ++ presentOf 6 x.firstAsn ++
    presentOf 1 x.samples ++ presentOf 1 x.channels

/-- The payload of ERROR REPORT, in the order of R79. The two summaries of R72 go as the one byte that 12.4 gives them in a
FIELD ERROR notice, not as two yes-or-no bytes of 12.3: the model's choice (log 41). -/
def FieldPort.reportBytes (x : FieldPort) : List Byte :=
  (ErrKind.all.flatMap fun k =>
    let r := x.log.kind k
    flagByte r.flag ++ bytesOf 2 r.count ++ bytesOf 1 (maskCode r.masked) ++ bytesOf 1 r.severity.code) ++
  flagByte x.linkDownActive ++ bytesOf 1 x.state.code ++ x.log.summaries ++ x.log.firstByte ++ headerBytes x.log.header

/-- ERROR REPORT (R79). -/
def errorReportOwner (payload : List Byte) (s : State) : Response :=
  match fport? (field payload 0 1) with
  | some p => ⟨.ok, (s.port p).reportBytes, s⟩
  | none => refuse .range s

/-- The severity action of a code: a severity, or KEEP (12.1). -/
def severityAction? (v : Nat) : Option (Option Severity) :=
  if v = 3 then some none else (Severity.ofCode v).map some

/-- The mask action of a code: mask, unmask, or KEEP (12.1). -/
def maskAction? : Nat → Option (Option Bool)
  | 0 => some (some true)
  | 1 => some (some false)
  | 2 => some none
  | _ => none

/-- The settings of the named kinds changed, KEEP leaving a setting as it was (04, R80). -/
def ErrorLog.configure (l : ErrorLog) (ks : List ErrKind) (sev : Option Severity) (mask : Option Bool) : ErrorLog :=
  ks.foldl (fun l k => l.setKind k
    { l.kind k with severity := sev.getD (l.kind k).severity, masked := mask.getD (l.kind k).masked }) l

/-- The severity and the mask of all ten kinds (R80). -/
def ErrorLog.settingBytes (l : ErrorLog) : List Byte :=
  ErrKind.all.flatMap fun k => bytesOf 1 (l.kind k).severity.code ++ bytesOf 1 (maskCode (l.kind k).masked)

/-- ERROR CONFIG (R80). -/
def errorConfigOwner (payload : List Byte) (s : State) : Response :=
  match fport? (field payload 0 1), errorSet? (field payload 1 2), severityAction? (field payload 3 1),
    maskAction? (field payload 4 1) with
  | some p, some (k :: ks), some sev, some mask =>
    let log := (s.port p).log.configure (k :: ks) sev mask
    ⟨.ok, log.settingBytes, s.setPort p { s.port p with log := log }⟩
  | _, _, _, _ => refuse .range s

/-- A kind record cleared; the LINK_DOWN flag stays set while its condition is active (04, R76, R81). -/
def KindRec.cleared (r : KindRec) (kept : Bool) : KindRec := { r with count := 0, flag := r.flag && kept }

/-- The kind keeps its flag at ERROR CLEAR (04, R76). -/
def FieldPort.keepsFlag (x : FieldPort) (k : ErrKind) : Bool := k == .linkDown && x.linkDownActive

/-- The log after ERROR CLEAR (04, R81). -/
def FieldPort.clearedLog (x : FieldPort) (ks : List ErrKind) (first : Bool) : ErrorLog :=
  let l := ks.foldl (fun l k => l.setKind k ((l.kind k).cleared (x.keepsFlag k))) x.log
  if first then { l with first := none, header := none } else l

/-- There is nothing for ERROR CLEAR to clear (04, R81): every named flag clear and count 0, and the first-error record
not to be cleared or already empty. -/
def ErrorLog.nothingToClear (l : ErrorLog) (ks : List ErrKind) (first : Bool) : Bool :=
  (ks.all fun k => !(l.kind k).flag && (l.kind k).count == 0) && (!first || l.first.isNone)

/-- ERROR CLEAR (R81): the reply carries the kinds kept and the status flags after the request, each as a set of kinds
(log 33). A clear-first-error byte that is neither 0 nor 1 is answered RANGE (log 34). -/
def errorClearOwner (payload : List Byte) (s : State) : Response :=
  match fport? (field payload 0 1), errorSet? (field payload 1 2), yesNo? (field payload 3 1) with
  | some p, some (k :: ks), some first =>
    let x := s.port p
    let log := x.clearedLog (k :: ks) first
    let kept := (k :: ks).filter x.keepsFlag
    let flags := ErrKind.all.filter fun k => (log.kind k).flag
    ⟨if x.log.nothingToClear (k :: ks) first then .nothing else .ok, errorSetOf kept ++ errorSetOf flags,
      s.setPort p { x with log := log }⟩
  | _, _, _ => refuse .range s

/-- ERROR_REPORT (R79). -/
def execErrorReport (c : CPort) (s : State) : Host.Outcome State Fault Refusal :=
  answerRequest c .errorReport errorReportOwner s

/-- ERROR_CONFIG (R80). -/
def execErrorConfig (c : CPort) (s : State) : Host.Outcome State Fault Refusal :=
  answerRequest c .errorConfig errorConfigOwner s

/-- ERROR_CLEAR (R81). -/
def execErrorClear (c : CPort) (s : State) : Host.Outcome State Fault Refusal :=
  answerRequest c .errorClear errorClearOwner s

end Sys2Proof.Machine
end

