-- ==== Sys2Proof/Machine/Conditioning.lean ====
section
/-!
DEFINITION. The conditioning unit (01): restart, first difference, peak-hold decimation, the two averages, ratio and
characteristic function, settling, the ring store and what a completed tick reports.
-/

namespace Sys2Proof.Machine

/-- The record a restart at tick `k` builds with the `kl` in force (01, R3). -/
def CondRec.fresh (k kl : Nat) : CondRec where
  last := none
  part := none
  sta := none
  lta := none
  prevC := 0
  restartTick := k
  settleRemaining := 2 ^ kl
  lastClipped := none
  completeThrough := none

/-- What the completion of a tick reports to the scheduler and the supervisor (01, R18): whether settling ended with it,
whether it is counted (the channel was not settling), the clip condition before and after it, and the raw noise and quiet
conditions, absent while settling (R20). -/
structure TickReport where
  tick : Nat
  settleDone : Bool
  counted : Bool
  clipBefore : Bool
  clipAfter : Bool
  noisy : Bool
  quiet : Bool
  deriving DecidableEq, Repr

/-- The sign of a difference, zero counting as positive (01, R7). -/
def signOf (d : Int) : Sign := if d < 0 then .neg else .pos

/-- The first difference of a sample (01, R5); 0 for the first sample after a restart and for a filled sample (R6). -/
def CondRec.difference (r : CondRec) (x : Option Int) : Int :=
  match x, r.last with
  | some v, some l => v - l
  | _, _ => 0

/-- The magnitude a sample brings into M: that of a measured sample, 0 for a filled one (01, R5, R6). -/
def magnitude : Option Int → Nat
  | some v => v.natAbs
  | none => 0

/-- A sample accumulated into the partial tick of tick `k` (01, R7): a strictly larger difference gives A and the sign. -/
def accumulate (part : Option PartialTick) (k : Nat) (d : Int) (m : Nat) : PartialTick :=
  match part with
  | some p =>
    if p.tick = k then
      if p.a < d.natAbs then ⟨k, d.natAbs, signOf d, max p.m m⟩ else { p with m := max p.m m }
    else ⟨k, d.natAbs, signOf d, m⟩
  | none => ⟨k, d.natAbs, signOf d, m⟩

/-- The recurrence of both averages (01, R9, R10): floor rounds toward negative infinity. -/
def average (old a k : Nat) : Nat := ((old : Int) + (256 * (a : Int) - old) / 2 ^ k).toNat

/-- The STA after a tick (01, R9); the first tick after a restart sets it (R13). -/
def nextSta (ks : Nat) (old : Option Nat) (a : Nat) : Nat :=
  match old with
  | some v => average v a ks
  | none => 256 * a

/-- The LTA is frozen on this tick (01, R10): settling is done and the previous c reaches the freeze level. At a freeze level
of 0 R10 freezes every tick after settling, the first one included, which R14 calls never frozen: the model follows R10, a
choice of its own (log 40). -/
def CondRec.frozen (r : CondRec) (freeze : Nat) : Bool := decide (r.settleRemaining = 0 ∧ freeze ≤ r.prevC)

/-- The LTA after a tick (01, R10, R13). -/
def nextLta (kl : Nat) (frozen : Bool) (old : Option Nat) (a : Nat) : Nat :=
  match old with
  | some v => if frozen then v else average v a kl
  | none => 256 * a

/-- The ratio (01, R11). -/
def ratio (ltaFloor sta lta : Nat) : Nat := min 255 (16 * sta / max lta (256 * ltaFloor))

/-- The characteristic function (01, R12). -/
def charFn (ltaFloor sta lta : Nat) : Nat := ratio ltaFloor sta lta - 16

/-- The record after a complete tick (01, R8 to R15, R19). -/
def CondRec.complete (ps : Params) (cfg : ChanConfig) (r : CondRec) (p : PartialTick) : CondRec :=
  let sta := nextSta (ps.get .ks) r.sta p.a
  let lta := nextLta (ps.get .kl) (r.frozen (ps.get .freezeLevel)) r.lta p.a
  { r with
    part := none
    sta := some sta
    lta := some lta
    prevC := if 0 < r.settleRemaining then 0 else charFn (ps.get .ltaFloor) sta lta
    settleRemaining := r.settleRemaining - 1
    lastClipped := if cfg.clip ≤ p.m then some p.tick else r.lastClipped
    completeThrough := some p.tick }

/-- The report of a complete tick, from the records before and after it (01, R18). -/
def tickReport (cfg : ChanConfig) (p : PartialTick) (before after : CondRec) : TickReport :=
  let counted := before.settleRemaining == 0
  let lta := after.lta.getD 0
  { tick := p.tick
    settleDone := before.settleRemaining == 1
    counted := counted
    clipBefore := before.clipActive
    clipAfter := after.clipActive
    noisy := counted && noisyRaw cfg.noise lta
    quiet := counted && quietRaw cfg.quiet lta }

/-- A sample of ASN `asn` taken by a channel with record `r` (01, R5 to R8): the channel after it, and the report of the
tick it completed, if any. The sample is `none` when filled. -/
def Channel.takeSample (c : Channel) (ps : Params) (r : CondRec) (asn : Nat) (x : Option Int) :
    Channel × Option TickReport :=
  let p := accumulate r.part (asn / 4) (r.difference x) (magnitude x)
  let r1 := { r with last := x.or r.last, part := some p }
  if asn % 4 = 3 then
    let r2 := r1.complete ps c.cfg p
    ({ c with cond := some r2, ring := Store.write c.ring (p.tick % Config.ringSlots) ⟨p.tick, r2.prevC, p.sign⟩ },
      some (tickReport c.cfg p r1 r2))
  else ({ c with cond := some r1 }, none)

/-- A channel restarted at ASN `asn` (01, R3; 02, R29, R36, R37): a new record, the holds cleared. -/
def Channel.restart (c : Channel) (kl asn : Nat) : Channel :=
  { c with cond := some (CondRec.fresh (asn / 4) kl), noisyHold := Hold.clear, quietHold := Hold.clear }

/-- The conditioning record discarded and the holds cleared, the slots of the ring kept (01, R4; 02, R28, R35). -/
def Channel.discard (c : Channel) : Channel :=
  { c with cond := none, noisyHold := Hold.clear, quietHold := Hold.clear }

end Sys2Proof.Machine
end

