-- ==== Sys2Proof/Machine/Journal.lean ====
section
/-!
DEFINITION. The detector journal (09): writing, quiet compression, repeat suppression, the hold after a red event, and the
meanings of the journal requests.
-/

namespace Sys2Proof.Machine

/-- The journal mode in force is HOLD_AFTER_RED (09, R178). -/
def State.holdMode (s : State) : Bool := s.param .journalMode == 1

/-- The entry is an EVENT entry of level RED (09, R173). -/
def EntryBody.isRed : EntryBody → Bool
  | .event _ .red => true
  | _ => false

/-- The end of a post count (09, R173): HELD in HOLD_AFTER_RED, none in WRAP. Answers whether the journal became HELD. -/
def Journal.endPost (hold : Bool) (j : Journal) : Journal × Bool :=
  if j.post = some 0 then ({ j with post := none, held := j.held || hold }, hold) else (j, false)

/-- An entry added at the newest end (09, R168): the oldest removed at 512, the next serial taken. -/
def Journal.append (b : EntryBody) (j : Journal) : Journal :=
  let kept := if Config.journalPlaces ≤ j.entries.length then j.entries.tail else j.entries
  { j with
    entries := kept ++ [⟨j.next, b⟩]
    next := if j.next < Config.max32 then j.next + 1 else j.next
    spent := !decide (j.next < Config.max32) }

/-- The post count at an entry of a serial (09, R173): started by a RED EVENT entry in HOLD_AFTER_RED, else counted down. -/
def Journal.countPost (starts : Bool) (postCount serial : Nat) (j : Journal) : Journal :=
  { j with
    post := if starts then some postCount else j.post.map (· - 1)
    cause := if starts then some serial else j.cause }

/-- An entry written (09, R168, R173). -/
def Journal.write (hold : Bool) (postCount : Nat) (b : EntryBody) (j : Journal) : Journal × Bool :=
  Journal.endPost hold ((j.append b).countPost (b.isRed && hold) postCount j.next)

/-- The flush of the pending quiet count (09, R170). -/
def Journal.flush (hold : Bool) (postCount : Nat) (j : Journal) : Journal × Bool :=
  if j.silent || j.quiet == 0 then (j, false)
  else Journal.write hold postCount (.quiet j.quiet) { j with quiet := 0 }

/-- The release of the suppressed tally (09, R172): a REPEAT entry of the run's kind, the run then none. -/
def Journal.release (hold : Bool) (postCount : Nat) (j : Journal) : Journal × Bool :=
  match j.run with
  | some (k, _) =>
    if j.silent || j.tally == 0 then (j, false)
    else Journal.write hold postCount (.repeated k j.tally) { j with tally := 0, run := none }
  | none => (j, false)

/-- The kind of run an entry belongs to (09, R171). -/
def EntryBody.runKind : EntryBody → Option RunKind
  | .stall _ _ => some .stall
  | .blind _ _ => some .blind
  | _ => none

/-- The run after an entry other than QUIET has been written (09, R171). -/
def nextRun (b : EntryBody) (run : Option (RunKind × Nat)) : Option (RunKind × Nat) :=
  b.runKind.map fun k =>
    match run with
    | some (k', _) => (k, if k' = k then 2 else 1)
    | none => (k, 1)

/-- The entry is suppressed: its kind is that of a run of length 2 (09, R171). -/
def Journal.suppresses (j : Journal) (b : EntryBody) : Bool :=
  match b.runKind, j.run with
  | some k, some (k', n) => k == k' && n == 2
  | _, _ => false

/-- An entry offered (09, R168, R170 to R174): discarded while HELD, suppressed in a run of 2, else written behind the
flush and the release. The entry is discarded if the journal became HELD at one of those two. -/
def Journal.offer (hold : Bool) (postCount : Nat) (b : EntryBody) (j : Journal) : Journal × Bool :=
  if j.silent then (j, false)
  else if j.suppresses b then
    ({ j with tally := if j.tally < Config.max32 then j.tally + 1 else j.tally }, false)
  else
    let r1 := j.flush hold postCount
    let r2 := r1.1.release hold postCount
    if r2.1.silent then (r2.1, r1.2 || r2.2)
    else
      let r3 := Journal.write hold postCount b { r2.1 with run := nextRun b r2.1.run }
      (r3.1, r1.2 || r2.2 || r3.2)

/-- A quiet window (09, R169): discarded while HELD, else counted, and a QUIET entry of 255 written when the count
reaches 255. -/
def Journal.quietWindow (hold : Bool) (postCount : Nat) (j : Journal) : Journal × Bool :=
  if j.silent then (j, false)
  else if j.quiet + 1 = 255 then Journal.write hold postCount (.quiet 255) { j with quiet := 0 }
  else ({ j with quiet := j.quiet + 1 }, false)

/-- The journal replaced, JOURNAL HELD raised on the survey port if it became HELD (09, R173). -/
def State.setJournal (s : State) (r : Journal × Bool) : State :=
  let s1 := { s with journal := r.1 }
  if r.2 then s1.raise .survey .journalHeld else s1

/-- An entry offered to the journal. -/
def State.offer (s : State) (b : EntryBody) : State :=
  s.setJournal (s.journal.offer s.holdMode (s.param .postCount) b)

/-- The pending quiet count flushed. -/
def State.flushQuiet (s : State) : State :=
  s.setJournal (s.journal.flush s.holdMode (s.param .postCount))

/-- A quiet window taken by the journal. -/
def State.quietWindow (s : State) : State :=
  s.setJournal (s.journal.quietWindow s.holdMode (s.param .postCount))

/-! ## Requests (09.6) -/

/-- The journal emptied by JOURNAL CLEAR, its next serial kept (09, R177). -/
def Journal.cleared (j : Journal) : Journal :=
  { Journal.powerOn with next := j.next, spent := j.spent }

/-- The entries a JOURNAL READ naming serial q returns: the oldest 16 with serials at or above q (09, R175). -/
def Journal.readFrom (j : Journal) (q : Nat) : List Entry :=
  (j.entries.filter fun e => decide (q ≤ e.serial)).take 16

/-- The payload of a JOURNAL READ reply (12.6). Where the run is none the run length goes as 0 beside the run kind 0, a value
that 12.6 gives for the kind alone: the model's choice (log 43). -/
def Journal.readBytes (j : Journal) (q : Nat) : List Byte :=
  bytesOf 1 ((j.overwritten q).toNat + 2 * j.held.toNat) ++ bytesOf 4 j.next ++
    bytesOf 2 (j.post.getD 0xFFFF) ++
    (match j.run with
      | some (k, n) => bytesOf 1 k.code ++ bytesOf 1 n
      | none => bytesOf 1 0 ++ bytesOf 1 0) ++
    bytesOf 4 j.tally ++ bytesOf 1 (j.readFrom q).length ++ (j.readFrom q).flatMap Entry.bytes

/-- JOURNAL READ (09, R175): the pending quiet count is flushed first. -/
def journalReadOwner (payload : List Byte) (s : State) : Response :=
  let q := field payload 0 4
  let s1 := s.flushQuiet
  ⟨if (s1.journal.readFrom q).isEmpty then .nothing else .ok, s1.journal.readBytes q, s1⟩

/-- JOURNAL RELEASE (09, R176): the held state ends, RESUMED is written behind a REPEAT of a pending tally, and the hold
cause becomes none. -/
def journalReleaseOwner (_ : List Byte) (s : State) : Response :=
  if s.journal.held then
    ⟨.ok, [], { s with journal := { s.journal with held := false, cause := none } }.offer .resumed⟩
  else refuse .nothing s

/-- JOURNAL CLEAR (09, R177). -/
def journalClearOwner (_ : List Byte) (s : State) : Response :=
  ⟨.ok, [], { s with journal := s.journal.cleared }⟩

/-- JOURNAL_READ (R175). -/
def execJournalRead (c : CPort) (s : State) : Host.Outcome State Fault Refusal :=
  answerRequest c .journalRead journalReadOwner s

/-- JOURNAL_RELEASE (R176). -/
def execJournalRelease (c : CPort) (s : State) : Host.Outcome State Fault Refusal :=
  answerRequest c .journalRelease journalReleaseOwner s

/-- JOURNAL_CLEAR (R177). -/
def execJournalClear (c : CPort) (s : State) : Host.Outcome State Fault Refusal :=
  answerRequest c .journalClear journalClearOwner s

end Sys2Proof.Machine
end

