-- ==== Sys2Proof/Machine/Supervisor.lean ====
section
/-!
DEFINITION. The channel supervisor (02): a change of state, the holds, latching and muting at a tick report, the lost
check, the rejoin test, the weights in force and the restart.
-/

namespace Sys2Proof.Machine

/-- A change of a channel's state, with what else the move does to the channel: the changed flag set and CHANNEL raised
(R42), a CHANNEL entry offered (R43). A restart of a SETTLING channel is such a change as well. CHANNEL is raised before the
entry is offered, and so joins the pending set ahead of the JOURNAL HELD of an entry that ends the post count (R173): the
spec gives no order, and this one is the model's choice (log 42). -/
def State.moveChan (s : State) (j : Fin 256) (dest : ChanState) (upd : Channel → Channel) : State :=
  let old := s.chan j
  ((s.setChan j { upd old with state := dest, changed := true }).raise .survey .channel).offer
    (.channel j old.state dest)

/-- A channel in one state moved to another, its record kept; a channel in any other state is not touched. -/
def State.moveFrom (s : State) (j : Fin 256) (old dest : ChanState) : State :=
  if (s.chan j).state = old then s.moveChan j dest id else s

/-- A restart of a channel at an ASN (01, R3): it becomes SETTLING. -/
def State.restartChan (s : State) (j : Fin 256) (asn : Nat) : State :=
  s.moveChan j .settling fun c => c.restart (s.param .kl) asn

/-- One condition counted at a tick report (02, R31), the holds given in ticks. A run count that a shortened hold has left at
or past the hold is set to 0 by a raw condition against the run, as the bullets of R31 say, and does not complete the hold at
that tick, as R44 (and the sentence of R31 on shortening) would have it: the model's choice (log 44). -/
def Hold.count (h : Hold) (raw : Bool) (mute release : Nat) : Hold :=
  if h.established then
    let n := if raw then 0 else h.run + 1
    if release ≤ n then ⟨false, 0⟩ else ⟨true, n⟩
  else
    let n := if raw then h.run + 1 else 0
    if mute ≤ n then ⟨true, 0⟩ else ⟨false, n⟩

/-- A hold of so many seconds, in ticks (02, R31). -/
def ticksOf (seconds : Nat) : Nat := 125 * seconds

/-- Alarms whose conditions became established are set (02, R39): an alarm that was clear sets the changed flag and raises
CHANNEL (R42). -/
def State.latch (s : State) (j : Fin 256) (add : Alarms) : State :=
  let c := s.chan j
  let after : Alarms :=
    ⟨c.alarms.noisy || add.noisy, c.alarms.quiet || add.quiet, c.alarms.clipped || add.clipped⟩
  if after = c.alarms then s
  else (s.setChan j { c with alarms := after, changed := true }).raise .survey .channel

/-- Both conditions of a counted report (02, R31), and the alarms of those that became established (R39). -/
def State.countHolds (s : State) (j : Fin 256) (r : TickReport) : State :=
  let c := s.chan j
  let mute := ticksOf (s.param .muteHold)
  let release := ticksOf (s.param .releaseHold)
  let noisy := c.noisyHold.count r.noisy mute release
  let quiet := c.quietHold.count r.quiet mute release
  (s.setChan j { c with noisyHold := noisy, quietHold := quiet }).latch j
    ⟨!c.noisyHold.established && noisy.established, !c.quietHold.established && quiet.established, false⟩

/-- The mute decision that follows a counted report (02, R32). -/
def State.muteDecision (s : State) (j : Fin 256) : State :=
  let c := s.chan j
  let established := c.noisyHold.established || c.quietHold.established
  match c.state with
  | .live | .lagging => if c.cfg.autoMute && established then s.moveChan j .muted id else s
  | .muted => if c.cfg.autoMute && established then s else s.moveChan j .live id
  | .off | .await | .settling | .lost => s

/-- What the supervisor does with a tick report (02, R30 to R32, R39). A channel that has lost its record since the tick
completed, by an advance of the front that the same report caused, counts nothing. -/
def State.supervise (s : State) (j : Fin 256) (r : TickReport) : State :=
  let s1 := if r.settleDone then s.moveFrom j .settling .live else s
  let s2 := s1.latch j ⟨false, false, !r.clipBefore && r.clipAfter⟩
  if r.counted && (s2.chan j).state.conditioned then (s2.countHolds j r).muteDecision j else s2

/-- The channels, in ascending order, that satisfy a test. -/
def State.channelsWith (s : State) (test : Channel → Bool) : List (Fin 256) :=
  ((enumFin s.channels).filter fun e => test e.2).map fun e => e.1

/-- The lost check over all channels with a new front (02, R35). -/
def State.lostCheck (s : State) (f : Nat) : State :=
  s.each (s.channelsWith fun c => c.lostAt f (s.param .lostDepth)) fun s j => s.moveChan j .lost Channel.discard

/-- A LAGGING channel that is ready for the front window rejoins (02, R34). -/
def Channel.rejoins (c : Channel) (f d : Nat) : Bool := c.state == .lagging && c.ready f d

/-- The rejoin test of every LAGGING channel at an advance (02, R34). -/
def State.rejoinAll (s : State) (f : Nat) : State :=
  s.each (s.channelsWith fun c => c.rejoins f s.banks.dMax) fun s j => s.moveFrom j .lagging .live

/-- The weight in force of every channel becomes its configured weight (02, R26). -/
def State.takeWeights (s : State) : State :=
  { s with channels := vmap (fun c => { c with weightInForce := c.cfg.weight }) s.channels }

end Sys2Proof.Machine
end

