-- ==== Sys2Proof/Machine/Swap.lean ====
section
/-!
DEFINITION. The swap of the delay banks (05, R94, R95) and the end of an activation (R93, R96).
-/

namespace Sys2Proof.Machine

/-- The serial after a serial: from 65,535 to 1, so that 0 is never given (05, R95). -/
def nextSerial (n : Nat) : Nat := if n < 65535 then n + 1 else 1

/-- The bank controller after the swap (05, R95). -/
def BankCtl.swapped (b : BankCtl) : BankCtl :=
  { b with
    active := b.standby
    standby := b.active
    hasActive := true
    standbyState := if b.hasActive then .loading else .empty
    activeSerial := nextSerial b.serialCounter
    dMax := b.validated
    outcome := .swapped (nextSerial b.serialCounter) b.validated
    serialCounter := nextSerial b.serialCounter }

/-- The swap (05, R95): the BANK entry and the BANK DONE notice with it. BANK is offered before BANK DONE is raised, so that the
JOURNAL HELD of an entry that ends the post count (R173) joins the pending set ahead of BANK DONE: R95 lists the two in this
order without saying that it is one, and taking it so is the model's choice (log 45). -/
def State.swapBanks (s : State) : State :=
  (({ s with banks := s.banks.swapped }).offer (.bank s.banks.swapped.activeSerial s.banks.swapped.dMax)).raise
    .survey .bankDone

/-- No window is being stacked and the trigger unit is IDLE, or the array is STOPPED (05, R94). -/
def State.swapAllowed (s : State) : Bool :=
  s.array == .stopped || (s.sched.window.isNone && s.trig.state == .idle)

/-- A PENDING swap would be taken now (05, R94). -/
def State.swapDue (s : State) : Bool := s.banks.standbyState == .pending && s.swapAllowed

/-- A PENDING swap considered (05, R94). -/
def State.considerSwap (s : State) : State := if s.swapDue then s.swapBanks else s

/-- An activation ended without a swap (05, R93, R96): the standby bank returns to LOADING with its contents. -/
def State.endActivation (s : State) (o : OutcomeRec) : State :=
  ({ s with banks := { s.banks with standbyState := .loading, outcome := o } }).raise .survey .bankDone

end Sys2Proof.Machine
end

