-- ==== Sys2Proof/Machine/Alerts.lean ====
section
/-!
DEFINITION. The event queue and the alert unit (08): queuing with eviction and drop, the rise and the fall of the level,
the dwell, and the meanings of their requests and of the dwell's expiry.
-/

namespace Sys2Proof.Machine

/-! ## The event queue -/

/-- A record queued at the newest end, the summary updated (08, R150). -/
def EventQueue.add (q : EventQueue) (e : EventRecord) : EventQueue :=
  { q with records := q.records ++ [e], last := some ⟨e.sequence, e.level, e.zone, e.bBest⟩ }

/-- The lowest level held (08, R151). -/
def EventQueue.lowest (q : EventQueue) : Nat :=
  (q.records.map fun e => e.level.code).foldl min 2

/-- The record a full queue evicts for a record of level `l`: the oldest of the lowest level present, when that level is
below `l` (08, R151). -/
def EventQueue.victim (q : EventQueue) (l : EventLevel) : Option EventRecord :=
  if q.lowest < l.code then q.records.find? fun e => e.level.code == q.lowest else none

/-- The records without the evicted one. -/
def EventQueue.remove (q : EventQueue) (e : EventRecord) : EventQueue :=
  { q with records := q.records.erase e }

/-- A record handed on by the event builder (08, R150, R151): queued with room, queued for an evicted record of a lower
level, or dropped. -/
def State.queueRecord (s : State) (e : EventRecord) : State :=
  if s.queue.records.length < Config.queuePlaces then
    ({ s with queue := s.queue.add e }).raiseBoth .event
  else
    match s.queue.victim e.level with
    | some old =>
      (({ s with queue := s.queue.remove old }).offer (.evicted old.sequence) |> fun s1 =>
        ({ s1 with queue := s1.queue.add e }).raiseBoth .event)
    | none => s.offer (.dropped e.sequence)

/-! ## The alert unit -/

/-- The amber dwell in force, in milliseconds (08, R164). -/
def State.dwellMs (s : State) : Nat := s.param .amberDwell * 60000

/-- The alert record after an event of level `l` and sequence `q`, none where nothing changes (08, R156). -/
def Alert.take (a : Alert) (dwell : Nat) (l : EventLevel) (q : Nat) : Option Alert :=
  match l, a.level with
  | .none, _ => none
  | .amber, .red => none
  | .amber, _ => some { a with level := .amber, cause := q, acknowledged := false, dwell := .running dwell }
  | .red, .red => some { a with cause := q, acknowledged := false }
  | .red, _ => some { a with level := .red, cause := q, acknowledged := false, dwell := .stopped }

/-- A change of the alert record: the lines follow (R160), ALERT is raised on both ports (R161). -/
def State.changeAlert (s : State) (a : Alert) : State := (s.setAlert a).raiseBoth .alert

/-- An event level handed to the alert unit (08, R156). -/
def State.takeLevel (s : State) (l : EventLevel) (q : Nat) : State :=
  match s.alert.take s.dwellMs l q with
  | some a => s.changeAlert a
  | none => s

/-- The expiry of the dwell (08, R157): GREEN when acknowledged, else EXPIRED. A dwell that does not run does not expire. -/
def dwellRunsOut (s : State) : State :=
  match s.alert.dwell with
  | .running _ =>
    if s.alert.acknowledged then s.changeAlert { s.alert with level := .green, dwell := .stopped }
    else s.changeAlert { s.alert with dwell := .expired }
  | .stopped | .expired => s

/-! ## Requests (08) -/

/-- The records with a sequence above q (08, R153). -/
def EventQueue.above (q : EventQueue) (n : Nat) : List EventRecord := q.records.filter fun e => decide (n < e.sequence)

/-- EVENT FETCH (R153): the record, and the number held above it. -/
def eventFetchOwner (payload : List Byte) (s : State) : Response :=
  match s.queue.above (field payload 0 4) with
  | e :: _ => ⟨.ok, e.bytes ++ bytesOf 1 (s.queue.above e.sequence).length, s⟩
  | [] => refuse .nothing s

/-- EVENT ACK (R154): the number removed and the number left. -/
def eventAckOwner (payload : List Byte) (s : State) : Response :=
  let left := s.queue.above (field payload 0 4)
  ⟨.ok, bytesOf 1 (s.queue.records.length - left.length) ++ bytesOf 1 left.length,
    { s with queue := { s.queue with records := left } }⟩

/-- ALERT STATUS (R163). -/
def alertStatusOwner (_ : List Byte) (s : State) : Response := ⟨.ok, s.alert.bytes, s⟩

/-- The level, cause and acknowledged flag, carried by every reply to ALERT ACK (R158). -/
def Alert.ackBytes (a : Alert) : List Byte := bytesOf 1 a.level.code ++ bytesOf 4 a.cause ++ flagByte a.acknowledged

/-- The status of an ALERT ACK naming n on a port, and the alert record after it, none where nothing changes (R158). -/
def Alert.ack (a : Alert) (dwell : Nat) (c : CPort) (n : Nat) : Status × Option Alert :=
  if a.level = .green then (.nothing, none)
  else if n < a.cause then (.stale, none)
  else if a.cause < n then (.range, none)
  else if a.level = .red then
    match c with
    | .plant => (.ok, some { a with level := .amber, acknowledged := true, dwell := .running dwell })
    | .survey => (.permission, none)
  else
    match a.dwell with
    | .expired => (.ok, some { a with level := .green, acknowledged := true, dwell := .stopped })
    | .running _ | .stopped => (.ok, if a.acknowledged then none else some { a with acknowledged := true })

/-- ALERT ACK (R158). -/
def alertAckOwner (c : CPort) (payload : List Byte) (s : State) : Response :=
  match s.alert.ack s.dwellMs c (field payload 0 4) with
  | (st, some a) => ⟨st, a.ackBytes, s.changeAlert a⟩
  | (st, none) => ⟨st, s.alert.ackBytes, s⟩

/-- INJECTION SET (R162). -/
def injectionSetOwner (payload : List Byte) (s : State) : Response :=
  match Injection.ofCode (field payload 0 1) with
  | some i =>
    if i = s.alert.injection then refuse .nothing s
    else ⟨.ok, [], ({ s with alert := { s.alert with injection := i } }).raise .survey .injection⟩
  | none => refuse .range s

/-- DWELL_EXPIRY (R157). -/
def execDwellExpiry (s : State) : Host.Outcome State Fault Refusal := answer dwellRunsOut s

/-- EVENT_FETCH (R153). -/
def execEventFetch (c : CPort) (s : State) : Host.Outcome State Fault Refusal :=
  answerRequest c .eventFetch eventFetchOwner s

/-- EVENT_ACK (R154). -/
def execEventAck (c : CPort) (s : State) : Host.Outcome State Fault Refusal :=
  answerRequest c .eventAck eventAckOwner s

/-- ALERT_STATUS (R163). -/
def execAlertStatus (c : CPort) (s : State) : Host.Outcome State Fault Refusal :=
  answerRequest c .alertStatus alertStatusOwner s

/-- ALERT_ACK (R158). -/
def execAlertAck (c : CPort) (s : State) : Host.Outcome State Fault Refusal :=
  answerRequest c .alertAck (alertAckOwner c) s

/-- INJECTION_SET (R162). -/
def execInjectionSet (c : CPort) (s : State) : Host.Outcome State Fault Refusal :=
  answerRequest c .injectionSet injectionSetOwner s

end Sys2Proof.Machine
end

