-- ==== Sys2Proof/Machine/Trigger.lean ====
section
/-!
DEFINITION. The trigger unit and the event builder (07): the decision on a window result, the close of an event with zone,
level and picks, the truncated close, and the meanings of the zone requests.
-/

namespace Sys2Proof.Machine

/-! ## The decision (07, R126 to R130) -/

/-- The result of a stacked window (06, R113, R114). -/
inductive WindowResult where
  | peak (p : Peak)
  | blind (window n weightSum : Nat)
  deriving DecidableEq, Repr

/-- A transition of the trigger state, and whether it is marked REJECTED (07, R125). -/
structure Move where
  old : TrigState
  new : TrigState
  rejected : Bool
  deriving DecidableEq, Repr

/-- What a close hands to the event builder: the best peak, the open count at the close, the LIMIT flag (07, R130). -/
structure Close where
  best : Peak
  openCount : Nat
  limit : Bool
  deriving DecidableEq, Repr

/-- The decision of the trigger unit: the record after it, the transitions in order, and the close if one was made. -/
structure Decision where
  trig : Trigger
  moves : List Move
  close : Option Close
  deriving DecidableEq, Repr

/-- The record kept, with the transitions so far. -/
def Trigger.stay (t : Trigger) (moves : List Move) : Decision := ⟨t, moves, none⟩

/-- A candidate dropped (07, R126 to R128, R132). -/
def Trigger.drop (moves : List Move) (rejected : Bool) : Decision :=
  ⟨Trigger.powerOn, moves ++ [⟨.armed, .idle, rejected⟩], none⟩

/-- The event of an OPEN record closed (07, R131): to IDLE, the counts 0. -/
def Trigger.closeNow (t : Trigger) (moves : List Move) (limit : Bool) : Decision :=
  ⟨Trigger.powerOn, moves ++ [⟨.opened, .idle, false⟩], t.candidate.map fun p => ⟨p, t.openCount, limit⟩⟩

/-- The close test of an OPEN record (07, R130 item 4). -/
def Trigger.closeTest (ps : Params) (t : Trigger) (moves : List Move) : Decision :=
  if ps.get .quietClose ≤ t.quietCount then t.closeNow moves false
  else if ps.get .eMax ≤ t.openCount then t.closeNow moves true
  else t.stay moves

/-- An event opened with a best peak (07, R129), the close test made on the opening window. -/
def Trigger.openWith (ps : Params) (best : Peak) (moves : List Move) : Decision :=
  Trigger.closeTest ps ⟨.opened, some best, 0, 1, 0⟩ (moves ++ [⟨.armed, .opened, false⟩])

/-- An unconfirmed ARMED record (07, R126 item 3, R127, R128): rejected at the confirm limit. -/
def Trigger.rejectTest (ps : Params) (t : Trigger) (moves : List Move) : Decision :=
  if ps.get .confirmLimit ≤ t.armedCount then Trigger.drop moves true else t.stay moves

/-- A peak record reaches T1, and it is coherent (07, R126, R127). -/
def Peak.confirms (ps : Params) (p : Peak) : Bool := decide (ps.get .t1 ≤ p.b ∧ ps.get .kmin ≤ p.k)

/-- The higher of a kept peak record and a new one, the kept one on equal B* (07, R127, R130). -/
def higher (kept : Option Peak) (p : Peak) : Peak :=
  match kept with
  | some q => if q.b < p.b then p else q
  | none => p

/-- A window result taken in IDLE (07, R126). -/
def Trigger.takeIdle (ps : Params) (t : Trigger) (r : WindowResult) : Decision :=
  match r with
  | .peak p =>
    if ps.get .t1 ≤ p.b then
      if ps.get .kmin ≤ p.k then Trigger.openWith ps p [⟨.idle, .armed, false⟩]
      else Trigger.rejectTest ps ⟨.armed, some p, 1, 0, 0⟩ [⟨.idle, .armed, false⟩]
    else t.stay []
  | .blind _ _ _ => t.stay []

/-- A window result taken in ARMED (07, R127, R128). -/
def Trigger.takeArmed (ps : Params) (t : Trigger) (r : WindowResult) : Decision :=
  match r with
  | .peak p =>
    if p.confirms ps then Trigger.openWith ps (higher t.candidate p) []
    else Trigger.rejectTest ps { t with candidate := some (higher t.candidate p), armedCount := t.armedCount + 1 } []
  | .blind _ _ _ => Trigger.rejectTest ps { t with armedCount := t.armedCount + 1 } []

/-- The quiet count after a window result taken in OPEN (07, R130 item 3). -/
def Trigger.nextQuiet (ps : Params) (t : Trigger) : WindowResult → Nat
  | .peak p => if ps.get .tRelease ≤ p.b then 0 else t.quietCount + 1
  | .blind _ _ _ => t.quietCount + 1

/-- The best peak after a window result taken in OPEN (07, R130 item 2). -/
def Trigger.nextBest (t : Trigger) : WindowResult → Option Peak
  | .peak p => some (higher t.candidate p)
  | .blind _ _ _ => t.candidate

/-- A window result taken in OPEN (07, R130). -/
def Trigger.takeOpen (ps : Params) (t : Trigger) (r : WindowResult) : Decision :=
  Trigger.closeTest ps
    { t with candidate := t.nextBest r, openCount := t.openCount + 1, quietCount := t.nextQuiet ps r } []

/-- A window result taken by the trigger unit (07, R125). -/
def Trigger.take (ps : Params) (t : Trigger) (r : WindowResult) : Decision :=
  match t.state with
  | .idle => t.takeIdle ps r
  | .armed => t.takeArmed ps r
  | .opened => t.takeOpen ps r

/-- What a slip or ARRAY STOP does to the trigger unit (07, R132, R133). -/
def Trigger.truncate (t : Trigger) : Decision :=
  match t.state with
  | .idle => t.stay []
  | .armed => Trigger.drop [] false
  | .opened => t.closeNow [] false

/-! ## Zones and levels (07, R138, R141) -/

/-- A zone's box contains a voxel given by its coordinates. -/
def ZoneRule.contains (z : ZoneRule) (v : Nat × Nat × Nat) : Bool :=
  decide (z.ix0 ≤ v.1 ∧ v.1 ≤ z.ix1) && decide (z.iy0 ≤ v.2.1 ∧ v.2.1 ≤ z.iy1) &&
    decide (z.iz0 ≤ v.2.2 ∧ v.2.2 ≤ z.iz1)

/-- The default zone: enabled, every voxel, REPORT, its thresholds the six parameters (07, R138, R146). -/
def Params.defaultZone (ps : Params) : ZoneRule :=
  ⟨true, 0, 31, 0, 31, 0, 31, false,
    ⟨ps.get .amberShut, ps.get .redShut⟩, ⟨ps.get .amberCirc, ps.get .redCirc⟩, ⟨ps.get .amberStim, ps.get .redStim⟩⟩

/-- A zone of a number: a rule, or the default zone. -/
def State.zone (s : State) (z : Nat) : ZoneRule :=
  if h : z < 8 then vget s.zones ⟨z, h⟩ else s.params.defaultZone

/-- The zone of a voxel: the first enabled rule whose box contains it, else 8 (07, R138). -/
def State.zoneOf (s : State) (v : Nat) : Nat :=
  match (enumFin s.zones).find? fun e => e.2.enabled && e.2.contains (s.banks.grid.coords v) with
  | some e => e.1.val
  | none => 8

/-- The thresholds of a zone for an injection state. -/
def ZoneRule.thresholds (z : ZoneRule) : Injection → Threshold
  | .shutIn => z.shutIn
  | .circulating => z.circulating
  | .stimulating => z.stimulating

/-- The level of an event of brightness b (07, R141). -/
def Threshold.level (t : Threshold) (b : Nat) : EventLevel :=
  if t.red ≤ b then .red else if t.amber ≤ b then .amber else .none

/-! ## Picks (07, R134 to R137) -/

/-- The slots a pick search reads, from a − r to a + r, absent reads left out (07, R134, R135). -/
def searchTicks (ring : Ring) (a r : Nat) : List Slot :=
  (List.range (2 * r + 1)).filterMap fun i => if r ≤ a + i then Ring.at ring (a + i - r) else none

/-- The pick tick: the largest c, the earliest among equals (07, R134). -/
def pickSlot : List Slot → Option Slot
  | [] => none
  | x :: rest => some (rest.foldl (fun best y => if best.c < y.c then y else best) x)

/-- The first motion from the peak sign and the polarity (07, R136). -/
def motionOf : Sign → Polarity → Motion
  | .pos, .positive => .up
  | .neg, .negative => .up
  | .pos, .negative => .down
  | .neg, .positive => .down

/-- The pick of one contributor of the best window, if it yields one (07, R136). -/
def State.pick (s : State) (best : Peak) (j : Fin 256) : Option Pick :=
  let c := s.chan j
  let a := best.tick + s.banks.active.delay best.voxel j.val
  match pickSlot (searchTicks c.ring a (s.param .pickRadius)) with
  | some x =>
    if s.param .pickLevel ≤ x.c then some ⟨j, (x.tick : Int) - a, x.c, motionOf x.sign c.cfg.polarity⟩ else none
  | none => none

/-- One pick ranks above another: the larger c, among equals the lower channel (07, R137). -/
def Pick.above (p q : Pick) : Bool := decide (q.c < p.c) || (p.c == q.c && decide (p.channel < q.channel))

/-- The picks kept under the cap, in their order (07, R137). -/
def capPicks (cap : Nat) (ps : List Pick) : List Pick :=
  ps.filter fun p => decide ((ps.countP fun q => q.above p) < cap)

/-- The picks of an event (07, R134 to R137). -/
def State.picks (s : State) (best : Peak) : List Pick :=
  capPicks (s.param .pickCap) (best.contributors.filterMap fun e => s.pick best e.1)

/-! ## The close (07, R131, R139 to R144) -/

/-- The zone action or a used-up counter ends the event without a record (07, R139, R140). -/
def State.suppressesClose (s : State) (zone : Nat) : Bool :=
  (s.zone zone).suppress || decide (Config.max32 ≤ s.queue.counter)

/-- The event record of a reported close (07, R143), taking the sequence number `q`. -/
def State.buildRecord (s : State) (c : Close) (truncated : Bool) (q : Nat) : EventRecord :=
  let zone := s.zoneOf c.best.voxel
  let at3 := s.banks.grid.coords c.best.voxel
  { sequence := q
    serial := c.best.serial
    originTick := c.best.tick
    voxel := c.best.voxel
    ix := at3.1
    iy := at3.2.1
    iz := at3.2.2
    bBest := c.best.b
    n := countOf c.best.contributors
    weightSum := weightOf c.best.contributors
    k := c.best.k
    openCount := c.openCount
    zone := zone
    injection := s.alert.injection
    level := ((s.zone zone).thresholds s.alert.injection).level c.best.b
    truncated := truncated
    limit := c.limit
    rehearsal := s.param .rehearsal == 1
    picks := s.picks c.best }

/-- A record handed on (07, R144): EVENT entry, event queue, and the alert unit unless the event is a rehearsal. -/
def State.handOn (s : State) (e : EventRecord) : State :=
  let s1 := (s.offer (.event e.sequence e.level)).queueRecord e
  if e.rehearsal then s1 else s1.takeLevel e.level e.sequence

/-- The close of an event, its TRIGGER entry written (07, R131 from step 2 on). -/
def State.closeEvent (s : State) (c : Close) (truncated : Bool) : State :=
  if s.suppressesClose (s.zoneOf c.best.voxel) then s.offer (.suppressed c.best.voxel c.best.b)
  else
    let q := s.queue.counter + 1
    let s1 := { s with queue := { s.queue with counter := q } }
    s1.handOn (s1.buildRecord c truncated q)

/-- The transitions of a decision journaled in order, then its close (07, R125, R131). -/
def State.carryOut (s : State) (d : Decision) (window : Nat) (truncated : Bool) : State :=
  let s1 := d.moves.foldl (fun s m => s.offer (.trigger m.old m.new window m.rejected)) s
  match d.close with
  | some c => s1.closeEvent c truncated
  | none => s1

/-- A window that the journal counts as quiet (09, R169): a peak below the journal level, the trigger unit in IDLE and not
moved by it (log 13). -/
def Peak.quietFor (p : Peak) (level : Nat) (before : TrigState) (d : Decision) : Bool :=
  decide (p.b < level) && before == .idle && d.moves.isEmpty

/-- The window's own entry (09, R169). -/
def State.windowEntry (s : State) (r : WindowResult) (before : TrigState) (d : Decision) : State :=
  match r with
  | .peak p =>
    if p.quietFor (s.param .journalLevel) before d then s.quietWindow
    else s.offer (.peak p.window p.voxel (p.tick - 16 * p.window) p.b p.k (countOf p.contributors))
  | .blind w n _ => s.offer (.blind w n)

/-- The window a result belongs to. -/
def WindowResult.window : WindowResult → Nat
  | .peak p => p.window
  | .blind w _ _ => w

/-- A window result handed on (06, R116): the trigger unit decides, the journal writes the window's own entry, then the
entries and effects of the decision. -/
def State.takeResult (s : State) (r : WindowResult) : State :=
  let d := s.trig.take s.params r
  (({ s with trig := d.trig }).windowEntry r s.trig.state d).carryOut d r.window false

/-- The trigger unit at a slip or ARRAY STOP, the front still at `f` (07, R132, R133). -/
def State.truncateTrigger (s : State) (f : Nat) : State :=
  let d := s.trig.truncate
  ({ s with trig := d.trig }).carryOut d f true

/-! ## Zone requests (07, R145, R146) -/

/-- The zone rule a ZONE SET payload gives, its yes-or-no and action codes checked (07, R145). -/
def zoneRule? (b : List Byte) : Option ZoneRule :=
  match yesNo? (field b 1 1), yesNo? (field b 8 1) with
  | some enabled, some suppress =>
    some ⟨enabled, field b 2 1, field b 3 1, field b 4 1, field b 5 1, field b 6 1, field b 7 1, suppress,
      ⟨field b 9 2, field b 11 2⟩, ⟨field b 13 2, field b 15 2⟩, ⟨field b 17 2, field b 19 2⟩⟩
  | _, _ => none

/-- A pair of bounds, or of thresholds, is in range and in order. -/
def ordered (lo hi most : Nat) : Bool := decide (lo ≤ hi ∧ hi ≤ most)

/-- The bounds and the thresholds of a rule are in range (07, R145 check 2). -/
def ZoneRule.inRange (z : ZoneRule) : Bool :=
  ordered z.ix0 z.ix1 31 && ordered z.iy0 z.iy1 31 && ordered z.iz0 z.iz1 31 &&
    ordered z.shutIn.amber z.shutIn.red 3825 && ordered z.circulating.amber z.circulating.red 3825 &&
    ordered z.stimulating.amber z.stimulating.red 3825

/-- ZONE SET (R145). -/
def zoneSetOwner (payload : List Byte) (s : State) : Response :=
  match zoneRule? payload with
  | some z =>
    if h : field payload 0 1 < 8 then
      if z.inRange then ⟨.ok, [], { s with zones := vset s.zones ⟨field payload 0 1, h⟩ z }⟩ else refuse .range s
    else refuse .range s
  | none => refuse .range s

/-- ZONE GET (R146). -/
def zoneGetOwner (payload : List Byte) (s : State) : Response :=
  let z := field payload 0 1
  if 8 < z then refuse .range s else ⟨.ok, (s.zone z).bytes, s⟩

/-- ZONE_SET (R145). -/
def execZoneSet (c : CPort) (s : State) : Host.Outcome State Fault Refusal :=
  answerRequest c .zoneSet zoneSetOwner s

/-- ZONE_GET (R146). -/
def execZoneGet (c : CPort) (s : State) : Host.Outcome State Fault Refusal :=
  answerRequest c .zoneGet zoneGetOwner s

end Sys2Proof.Machine
end

