-- ==== Sys2Proof/Machine/Stack.lean ====
section
/-!
DEFINITION. The stack scheduler and the stack engine (06): the start of a stacking, the hold-off, the due and the readiness
tests, brightness and window peak, the actions of a completion, and the slip.
-/

namespace Sys2Proof.Machine

/-! ## Starting a stacking (06, R106, R108, R110) -/

/-- The members of A(F) with their weights, as contributors. -/
def contributorsOf (l : List (Fin 256 × Channel)) : List Contributor := l.map fun e => (e.1, e.2.weightInForce)

/-- The record of a window formed from its contributors (06, R110). -/
def State.newWindow (s : State) (f : Nat) (l : List Contributor) : Window :=
  ⟨f, l, s.banks.activeSerial, s.banks.dMax, decide (countOf l < s.param .smin)⟩

/-- Laggards reported to the supervisor and a STALL entry offered (06, R108; 02, R33). -/
def State.reportLaggards (s : State) (f : Nat) (laggards : List (Fin 256)) : State :=
  let s1 := s.each laggards fun s j => s.moveFrom j .live .lagging
  if laggards.isEmpty then s1 else s1.offer (.stall f laggards.length)

/-- Stacking of the front window started (06, R108, R110): the members found ready contribute, the others are laggards. -/
def State.startStacking (s : State) : State :=
  match s.sched.front with
  | some f =>
    let s1 := s.reportLaggards f (s.unreadyMembers.map fun e => e.1)
    { s1 with
      sched :=
        { s1.sched with
          state := .stacking
          timer := none
          window := some (s.newWindow f (contributorsOf s.readyMembers)) } }
  | none => s

/-- The scheduler goes to HOLDING, the timer started with the hold-off in force (06, R106). -/
def State.startHolding (s : State) : State :=
  { s with sched := { s.sched with state := .holding, timer := some (s.param .holdOff) } }

/-- The readiness test of a due window found in COLLECTING (06, R105, R106). -/
def State.readyOrHold (s : State) : State :=
  if s.unreadyMembers.isEmpty ∨ s.param .holdOff = 0 then s.startStacking else s.startHolding

/-- The due test against every channel (06, R104), made in COLLECTING. -/
def State.dueStep (s : State) : State := if s.sched.state = .collecting ∧ s.due then s.readyOrHold else s

/-! ## The engine (06, R111, R113, R114) -/

/-- The c that a ring read of a contributor returns, an absent read contributing 0 (06, R111). -/
def State.readC (s : State) (j : Fin 256) (t : Nat) : Nat :=
  match Ring.at (s.chan j).ring t with
  | some x => x.c
  | none => 0

/-- The stacked sum (06, R111). -/
def State.stackedSum (s : State) (l : List Contributor) (v t : Nat) : Nat :=
  (l.map fun e => e.2 * s.readC e.1 (t + s.banks.active.delay v e.1.val)).sum

/-- The brightness (06, R111). -/
def State.brightness (s : State) (l : List Contributor) (v t : Nat) : Nat :=
  16 * s.stackedSum l v t / weightOf l

/-- A brightness found at a tick and a voxel. -/
structure Bright where
  tick : Nat
  voxel : Nat
  b : Nat
  deriving DecidableEq, Repr

/-- The points of a window in the order in which ties are broken: earliest tick, then lowest voxel (06, R113). -/
def windowPoints (f voxels : Nat) : List (Nat × Nat) :=
  (List.range 16).flatMap fun i => (List.range voxels).map fun v => (16 * f + i, v)

/-- The larger of two brightnesses, the earlier found on a tie. -/
def Bright.better (x y : Bright) : Bright := if x.b < y.b then y else x

/-- The window peak's place and brightness (06, R113). -/
def State.brightest (s : State) (w : Window) : Bright :=
  (windowPoints w.window s.banks.grid.voxels).foldl
    (fun best e => best.better ⟨e.1, e.2, s.brightness w.contributors e.2 e.1⟩)
    ⟨16 * w.window, 0, s.brightness w.contributors 0 (16 * w.window)⟩

/-- A contributor counts in K: the read at the peak is present and reaches the pick level (06, R111, R114). An absent read
counts as below the pick level as R111 says, at a pick level of 0 too (log 37). -/
def State.coherent (s : State) (x : Bright) (e : Contributor) : Bool :=
  match Ring.at (s.chan e.1).ring (x.tick + s.banks.active.delay x.voxel e.1.val) with
  | some slot => decide (s.param .pickLevel ≤ slot.c)
  | none => false

/-- The window peak record (06, R114). -/
def State.windowPeak (s : State) (w : Window) : Peak :=
  let x := s.brightest w
  ⟨w.window, x.voxel, x.tick, x.b, w.contributors.countP (s.coherent x), w.contributors, w.serial⟩

/-- The result of a window (06, R113, R114). -/
def State.windowResult (s : State) (w : Window) : WindowResult :=
  if w.blind then .blind w.window (countOf w.contributors) (weightOf w.contributors) else .peak (s.windowPeak w)

/-! ## The slip (06, R118, R119) -/

/-- F′: the smallest window number whose write limit lies above a last tick (06, R119). -/
def slipTarget (lastTick : Nat) : Nat :=
  if lastTick < Config.writeSpan then 0 else (lastTick - Config.writeSpan) / 16 + 1

/-- The slip wait of a port cleared and its request withdrawn. -/
def State.endSlipWait (s : State) (p : FPort) : State :=
  (s.setPort p { s.port p with slipWait := false }).withdraw p

/-- The front at a window, the scheduler COLLECTING, with no timer and no window in flight (06, R115 step 2, R119 steps 2
and 3). -/
def State.frontAt (s : State) (f : Nat) : State :=
  { s with sched := { s.sched with front := some f, state := .collecting, timer := none, window := none } }

/-- The advance of the front: weights, lost check, rejoin test (06, R115 steps 3 to 5, R119 step 4). -/
def State.advanced (s : State) (f : Nat) : State := (s.takeWeights.lostCheck f).rejoinAll f

/-- The header log of the frame in a port's handling place. -/
def FieldPort.handlingHeader (x : FieldPort) : HeaderLog :=
  match x.handling with
  | some h => headerOfBody h.body
  | none => HeaderLog.absent

/-- The front moved by a slip from f to g, its effects in order (06, R119). No window is in flight. -/
def State.slipFront (s : State) (p : FPort) (f g : Nat) : State :=
  let s1 := s.truncateTrigger f
  let s2 := ((s1.frontAt g).offer (.slip f (g - f))).advanced g
  (s2.logError p .slip (s2.port p).handlingHeader).considerSwap

/-- A slip taken for a packet (06, R119); it is no slip when the limit already lies above the packet. -/
def State.takeSlip (s : State) (r : SlipReq) : State :=
  let s1 := s.endSlipWait r.port
  match s1.sched.front with
  | some f => if f < slipTarget r.lastTick then s1.slipFront r.port f (slipTarget r.lastTick) else s1
  | none => s1

/-- The slip requests of the record taken in the order they were made (06, R115 step 7). -/
def State.takeSlips (s : State) : State := s.sched.slips.foldl State.takeSlip s

/-! ## Completion (06, R115) -/

/-- Steps 1 to 7 of a completion of window w with result r. -/
def State.complete (s : State) (w : Window) (r : WindowResult) : State :=
  (((s.takeResult r).frontAt (w.window + 1)).advanced (w.window + 1)).considerSwap.takeSlips

/-- The blind window in flight, if there is one. -/
def State.blindWindow (s : State) : Option Window := s.sched.window.filter fun w => w.blind

/-- Blind windows completed at once, each followed by the due test of its completion (06, R110, R115). -/
def runBlind : Nat → State → State
  | 0, s => s
  | fuel + 1, s =>
    match s.blindWindow with
    | some w => runBlind fuel (s.complete w (s.windowResult w)).dueStep
    | none => s

/-- The newest tick any channel holds. -/
def State.newestTick (s : State) : Nat :=
  s.channels.toArray.toList.foldl (fun m c => max m (c.completeThrough.getD 0)) 0

/-- Blind windows completed until none is in flight. A completion advances the front and stores no tick, and a further
window is due only while the front lies at or below the newest tick, which bounds the number of windows. -/
def State.settle (s : State) : State := runBlind (s.newestTick / 16 + 3 - s.sched.front.getD 0 + 1) s

/-- The due test (06, R104, R115 step 8). -/
def State.dueTest (s : State) : State := s.dueStep.settle

/-- The readiness test in HOLDING (06, R105). -/
def State.holdingTest (s : State) : State :=
  if s.sched.state = .holding ∧ s.unreadyMembers.isEmpty then s.startStacking.settle else s

/-- A change of channels, their entering or leaving A(F) reported to the scheduler (06, R103, R105). -/
def State.notifiedAll (s : State) (l : List (Fin 256)) (f : State → State) : State :=
  let s1 := f s
  if l.all fun j => s1.isMember j == s.isMember j then s1 else s1.holdingTest

/-- A change of one channel, its entering or leaving A(F) reported to the scheduler. -/
def State.notified (s : State) (j : Fin 256) (f : State → State) : State := s.notifiedAll [j] f

/-- The tests that follow a swap taken outside a completion and a slip (06, R105). -/
def State.afterSwap (s : State) : State :=
  match s.sched.state with
  | .collecting => s.dueTest
  | .holding => s.holdingTest
  | .unset | .stacking => s

/-- The scheduler at a store report of tick k of channel j (06, R101, R105). -/
def State.scheduleReport (s : State) (j : Fin 256) (k : Nat) : State :=
  match s.sched.state with
  | .unset =>
    if s.array = .running then
      ({ s with sched := { s.sched with front := some (k / 16), state := .collecting } }).dueTest
    else s
  | .collecting => if s.dueBy j then s.readyOrHold.settle else s
  | .holding => if s.isMember j then s.holdingTest else s
  | .stacking => s

/-- The rejoin test of one channel at a store report (02, R34; 06, R105). -/
def State.rejoinTest (s : State) (j : Fin 256) : State :=
  match s.sched.front with
  | some f => if (s.chan j).rejoins f s.banks.dMax then s.notified j fun s => s.moveFrom j .lagging .live else s
  | none => s

/-- A slip requested while a window is stacked (06, R118): the request joins the list, and its packet waits. -/
def State.holdSlip (s : State) (r : SlipReq) : State :=
  { s.setPort r.port { s.port r.port with slipWait := true } with
    sched := { s.sched with slips := s.sched.slips ++ [r] } }

/-- A slip requested while no window is stacked (06, R118, R119): taken at once, and followed by the due test. -/
def State.slipAtOnce (s : State) (r : SlipReq) : State := (s.takeSlip r).dueTest

/-- The expiry of the hold-off timer (06, R108). A timer that does not run does not expire. -/
def holdOffRunsOut (s : State) : State :=
  if s.sched.state = .holding then s.startStacking.settle else s

/-- HOLD_OFF_EXPIRY (R108). -/
def execHoldOffExpiry (s : State) : Host.Outcome State Fault Refusal := answer holdOffRunsOut s

end Sys2Proof.Machine
end

