-- ==== Sys2Proof/Machine/Channels.lean ====
section
/-!
DEFINITION. The meanings of the channel requests (02, R25, R27, R28, R40, R41).
-/

namespace Sys2Proof.Machine

/-- The channel a number names, none above 255. -/
def channel? (v : Nat) : Option (Fin 256) := if h : v < 256 then some ⟨v, h⟩ else none

/-- The polarity of a code (12.1). -/
def polarity? : Nat → Option Polarity
  | 0 => some .positive
  | 1 => some .negative
  | _ => none

/-- The configuration of a CHANNEL CONFIG payload as given (12.3), none for an unknown polarity or auto-mute code. -/
def givenConfig? (b : List Byte) : Option ChanConfig :=
  match polarity? (field b 3 1), yesNo? (field b 13 1) with
  | some pol, some am => some ⟨field b 2 1, pol, field b 4 3, field b 7 3, field b 10 3, am⟩
  | _, _ => none

/-- A configuration held to its ranges (01, R21; 02, R25). The noise and quiet levels span their three bytes. -/
def ChanConfig.clamped (c : ChanConfig) : ChanConfig :=
  { c with weight := min 15 c.weight, clip := max 1 (min 8388607 c.clip) }

/-- A channel given a configuration; the weight in force follows at once while the front is undefined (02, R26). -/
def Channel.configure (c : Channel) (cfg : ChanConfig) (atOnce : Bool) : Channel :=
  { c with cfg := cfg, weightInForce := if atOnce then cfg.weight else c.weightInForce }

/-- CHANNEL CONFIG (R25). -/
def channelConfigOwner (payload : List Byte) (s : State) : Response :=
  match channel? (field payload 0 2), givenConfig? payload with
  | some j, some given =>
    let cfg := given.clamped
    let s1 := s.setChan j ((s.chan j).configure cfg s.sched.front.isNone)
    if cfg = given then ⟨.ok, [], s1⟩ else ⟨.clamped, cfg.bytes, s1⟩
  | _, _ => refuse .range s

/-- CHANNEL ENABLE (R27). -/
def channelEnableOwner (payload : List Byte) (s : State) : Response :=
  match channel? (field payload 0 2) with
  | some j =>
    if (s.chan j).state = .off then ⟨.ok, [], s.notified j fun s => s.moveChan j .await Channel.discard⟩
    else refuse .nothing s
  | none => refuse .range s

/-- CHANNEL DISABLE (R28). -/
def channelDisableOwner (payload : List Byte) (s : State) : Response :=
  match channel? (field payload 0 2) with
  | some j =>
    if (s.chan j).state = .off then refuse .nothing s
    else ⟨.ok, [], s.notified j fun s => s.moveChan j .off Channel.discard⟩
  | none => refuse .range s

/-- A hold as CHANNEL QUERY reports it (R41). -/
def Hold.bytes (h : Hold) : List Byte := flagByte h.established ++ bytesOf 2 h.run

/-- The conditioning values of R23 (log 15). -/
def Channel.conditioningBytes (c : Channel) : List Byte :=
  presentOf 4 (c.cond.bind fun r => r.sta) ++ presentOf 4 (c.cond.bind fun r => r.lta) ++
    bytesOf 1 ((c.cond.map fun r => r.prevC).getD 0) ++ sixOf c.completeThrough ++ sixOf c.oldestHeld

/-- The payload of CHANNEL QUERY, in the order of R41. -/
def Channel.queryBytes (c : Channel) : List Byte :=
  c.cfg.bytes ++ bytesOf 1 c.weightInForce ++ bytesOf 1 c.state.code ++ alarmByte c.alarms ++ c.noisyHold.bytes ++
    c.quietHold.bytes ++ flagByte c.clipActive ++ c.conditioningBytes

/-- CHANNEL QUERY (R41). -/
def channelQueryOwner (payload : List Byte) (s : State) : Response :=
  match channel? (field payload 0 2) with
  | some j => ⟨.ok, (s.chan j).queryBytes, s⟩
  | none => refuse .range s

/-- The conditions established on a channel (02, R39). -/
def Channel.establishedNow (c : Channel) : Alarms := ⟨c.noisyHold.established, c.quietHold.established, c.clipActive⟩

/-- The alarms in both sets. -/
def Alarms.inter (a b : Alarms) : Alarms := ⟨a.noisy && b.noisy, a.quiet && b.quiet, a.clipped && b.clipped⟩

/-- The alarms of one set that are not in another. -/
def Alarms.diff (a b : Alarms) : Alarms := ⟨a.noisy && !b.noisy, a.quiet && !b.quiet, a.clipped && !b.clipped⟩

/-- No alarm. -/
def Alarms.none : Alarms := ⟨false, false, false⟩

/-- CHANNEL ALARM CLEAR (R40): the reply carries the alarms kept and the latched alarms after the request. -/
def channelAlarmClearOwner (payload : List Byte) (s : State) : Response :=
  match channel? (field payload 0 2), alarmSet? (field payload 2 1) with
  | some j, some named =>
    if named = Alarms.none then refuse .range s
    else
      let c := s.chan j
      let kept := named.inter c.establishedNow
      let after := c.alarms.diff (named.diff kept)
      ⟨if c.alarms.inter named = Alarms.none then .nothing else .ok, alarmByte kept ++ alarmByte after,
        s.setChan j { c with alarms := after }⟩
  | _, _ => refuse .range s

/-- CHANNEL_CONFIG (R25). -/
def execChannelConfig (c : CPort) (s : State) : Host.Outcome State Fault Refusal :=
  answerRequest c .channelConfig channelConfigOwner s

/-- CHANNEL_ENABLE (R27). -/
def execChannelEnable (c : CPort) (s : State) : Host.Outcome State Fault Refusal :=
  answerRequest c .channelEnable channelEnableOwner s

/-- CHANNEL_DISABLE (R28). -/
def execChannelDisable (c : CPort) (s : State) : Host.Outcome State Fault Refusal :=
  answerRequest c .channelDisable channelDisableOwner s

/-- CHANNEL_QUERY (R41). -/
def execChannelQuery (c : CPort) (s : State) : Host.Outcome State Fault Refusal :=
  answerRequest c .channelQuery channelQueryOwner s

/-- CHANNEL_ALARM_CLEAR (R40). -/
def execChannelAlarmClear (c : CPort) (s : State) : Host.Outcome State Fault Refusal :=
  answerRequest c .channelAlarmClear channelAlarmClearOwner s

end Sys2Proof.Machine
end

