-- ==== Sys2Proof/Machine/ControlPorts.lean ====
section
/-!
DEFINITION. The control ports (10): the receive line, the transmitter, the port reset, and the meanings of the requests
that the ports and the parameter table own.
-/

namespace Sys2Proof.Machine

/-! ## The receive line (10, R180, R181) -/

/-- A received request frame placed (10, R181): queued, answered BUSY, or discarded. -/
def CtlPort.place (x : CtlPort) (r : Request) : CtlPort :=
  if x.queue.length < Config.requestPlaces then { x with queue := x.queue ++ [r] }
  else if x.refusals.length < Config.refusalPlaces then { x with refusals := x.refusals ++ [⟨r.tag, r.code⟩] }
  else x

/-- The request of a good frame's body: class REQUEST and at least three bytes (10, R180). -/
def request? : List Byte → Option Request
  | cls :: tag :: code :: payload => if cls = 0x02 then some ⟨tag, code, payload⟩ else none
  | _ => none

/-- What the receiver of a control port has found (10, R180): only a request frame has an effect. -/
def CtlPort.rxEvent (x : CtlPort) : RxEvent → CtlPort
  | .good body =>
    match request? body with
    | some r => x.place r
    | none => x
  | .start | .badLength _ | .badCrc _ _ => x

/-- Bytes of the line of a control port (10, R180); none are taken in BREAK. -/
def CtlPort.bytes (x : CtlPort) (bs : List Byte) : CtlPort :=
  match x.rx with
  | .line rx =>
    let r := feed Config.controlMaxBody rx bs
    { r.1.foldl CtlPort.rxEvent x with rx := .line r.2 }
  | .inBreak => x

/-- Bytes of the line of a control port. -/
def controlBytes (c : CPort) (bs : List Byte) (s : State) : State := s.setCtl c ((s.ctl c).bytes bs)

/-- CONTROL_FRAME_START (R180). -/
def execControlFrameStart (c : CPort) (s : State) : Host.Outcome State Fault Refusal :=
  answer (controlBytes c syncPair) s

/-- CONTROL_LENGTH_REFUSED (R180). -/
def execControlLengthRefused (c : CPort) (len : BitVec 16) (s : State) : Host.Outcome State Fault Refusal :=
  answer (controlBytes c (bytesOf 2 len.toNat)) s

/-- CONTROL_FRAME_RECEIVED (R180). -/
def execControlFrameReceived (c : CPort) (bytes : List Byte) (s : State) : Host.Outcome State Fault Refusal :=
  answer (controlBytes c bytes) s

/-! ## The transmitter (10, R184) -/

/-- The frame being sent has ended: the reply place empties if it was its reply (10, R184). -/
def CtlPort.sent (x : CtlPort) : CtlPort :=
  match x.tx with
  | some t => { x with tx := none, reply := if t.isReply then none else x.reply }
  | none => x

/-- The end of a transmission; the next choice follows at the end of the step (log 9). -/
def transmissionEnds (c : CPort) (s : State) : State := s.setCtl c (s.ctl c).sent

/-- TRANSMISSION_END (R184). -/
def execTransmissionEnd (c : CPort) (s : State) : Host.Outcome State Fault Refusal := answer (transmissionEnds c) s

/-! ## Port reset (10, R188, R189) -/

/-- What a port reset does to the port's record, ahead of its notice (10, R188 items 1 to 6). -/
def CtlPort.resetTaken (x : CtlPort) : CtlPort :=
  { x with
    rx := .inBreak
    spacing := Config.breakTime
    queue := []
    refusals := []
    reply := (x.reply.filter fun r => r.begun).map fun r => { r with ahead := 0 }
    pending := []
    mask := []
    resets := if x.resets < Config.max16 then x.resets + 1 else x.resets }

/-- A port reset (10, R188); one break gives one. -/
def portResets (c : CPort) (s : State) : State :=
  match (s.ctl c).rx with
  | .line _ =>
    let s1 := (s.setCtl c (s.ctl c).resetTaken).raise c .portReset
    match c with
    | .plant => s1.raise .survey .plantLink
    | .survey => s1
  | .inBreak => s

/-- PORT_RESET (R188). -/
def execPortReset (c : CPort) (s : State) : Host.Outcome State Fault Refusal := answer (portResets c) s

/-- The line returns to marking after a break (10, R188). -/
def breakEnds (c : CPort) (s : State) : State :=
  match (s.ctl c).rx with
  | .inBreak => s.setCtl c { s.ctl c with rx := .line (.hunting false), spacing := 0 }
  | .line _ => s

/-- BREAK_END (R188). -/
def execBreakEnd (c : CPort) (s : State) : Host.Outcome State Fault Refusal := answer (breakEnds c) s

/-- UNKNOWN_REQUEST (R182 check 1). -/
def execUnknownRequest (c : CPort) (s : State) : Host.Outcome State Fault Refusal := answer (takeUnknown c) s

/-! ## Notice masks (10, R186, R187) -/

/-- A kind can be named by a mask request on a port. -/
def NoticeKind.nameable (k : NoticeKind) (c : CPort) : Bool := k.maskable && k.receivedBy c

/-- The kinds a mask request names, none where it is refused RANGE (10, R186). -/
def namedKinds? (c : CPort) (payload : List Byte) : Option (List NoticeKind) :=
  match noticeSet? (field payload 0 2) with
  | some (k :: ks) => if (k :: ks).all fun k => k.nameable c then some (k :: ks) else none
  | some [] | none => none

/-- Kinds masked on a port, leaving its pending set (10, R186). -/
def CtlPort.maskKinds (x : CtlPort) (ks : List NoticeKind) : CtlPort :=
  { x with
    mask := NoticeKind.all.filter fun k => x.mask.contains k || ks.contains k
    pending := x.pending.filter fun k => !ks.contains k }

/-- Kinds unmasked on a port, raising nothing (10, R187). -/
def CtlPort.unmaskKinds (x : CtlPort) (ks : List NoticeKind) : CtlPort :=
  { x with mask := x.mask.filter fun k => !ks.contains k }

/-- NOTICE MASK SET (R186). -/
def noticeMaskSetOwner (c : CPort) (payload : List Byte) (s : State) : Response :=
  match namedKinds? c payload with
  | some ks =>
    let x := s.ctl c
    if ks.all fun k => x.mask.contains k then ⟨.nothing, noticeSetOf x.mask, s⟩
    else ⟨.ok, noticeSetOf (x.maskKinds ks).mask, s.setCtl c (x.maskKinds ks)⟩
  | none => refuse .range s

/-- NOTICE MASK CLEAR (R187). -/
def noticeMaskClearOwner (c : CPort) (payload : List Byte) (s : State) : Response :=
  match namedKinds? c payload with
  | some ks =>
    let x := s.ctl c
    if ks.all fun k => !x.mask.contains k then ⟨.nothing, noticeSetOf x.mask, s⟩
    else ⟨.ok, noticeSetOf (x.unmaskKinds ks).mask, s.setCtl c (x.unmaskKinds ks)⟩
  | none => refuse .range s

/-- NOTICE_MASK_SET (R186). -/
def execNoticeMaskSet (c : CPort) (s : State) : Host.Outcome State Fault Refusal :=
  answerRequest c .noticeMaskSet (noticeMaskSetOwner c) s

/-- NOTICE_MASK_CLEAR (R187). -/
def execNoticeMaskClear (c : CPort) (s : State) : Host.Outcome State Fault Refusal :=
  answerRequest c .noticeMaskClear (noticeMaskClearOwner c) s

/-! ## Parameters (10, R190, R191) -/

/-- PARAM SET of a parameter of the table (R190). -/
def setParam (i : ParamId) (v : Nat) (s : State) : Response :=
  let reply (w : Nat) : List Byte := bytesOf 1 i.row.code ++ bytesOf 4 w
  if i.row.mode then
    if v ≤ i.row.greatest then ⟨.ok, reply v, { s with params := s.params.put i v }⟩
    else ⟨.range, reply (s.param i), s⟩
  else
    let w := s.params.clamped i v
    ⟨if w = v then .ok else .clamped, reply w, { s with params := s.params.put i w }⟩

/-- The values of a RANGE reply to a PARAM SET of an identifier that names no parameter (R190): the identifier, and for the
value held, of which there is none, a free value (log 17). -/
def unknownParamBytes (id : Nat) : List Byte :=
  bytesOf 1 id ++ bytesOf 4 (Config.unheldParamValue (BitVec.ofNat 8 id)).toNat

/-- PARAM SET (R190). -/
def paramSetOwner (payload : List Byte) (s : State) : Response :=
  match ParamId.ofCode (field payload 0 1) with
  | some i => setParam i (field payload 1 4) s
  | none => ⟨.range, unknownParamBytes (field payload 0 1), s⟩

/-- PARAM GET (R191): the value, its range and its default. -/
def paramGetOwner (payload : List Byte) (s : State) : Response :=
  match ParamId.ofCode (field payload 0 1) with
  | some i =>
    ⟨.ok, bytesOf 4 (s.param i) ++ bytesOf 4 i.row.least ++ bytesOf 4 i.row.greatest ++ bytesOf 4 i.row.default, s⟩
  | none => refuse .range s

/-- PARAM_SET (R190). -/
def execParamSet (c : CPort) (s : State) : Host.Outcome State Fault Refusal := answerRequest c .paramSet paramSetOwner s

/-- PARAM_GET (R191). -/
def execParamGet (c : CPort) (s : State) : Host.Outcome State Fault Refusal := answerRequest c .paramGet paramGetOwner s

/-! ## Identity and status (10, R192, R193) -/

/-- IDENTIFY (R192). -/
def identifyOwner (_ : List Byte) (s : State) : Response :=
  ⟨.ok,
    identityBytes ++ bytesOf 2 Config.numChannels ++ bytesOf 2 Config.maxVoxels ++ bytesOf 1 Config.queuePlaces ++
      bytesOf 2 Config.journalPlaces ++ bytesOf 1 4, s⟩

/-- Every channel state, in the order of the codes (12.1). -/
def ChanState.all : List ChanState := [.off, .await, .settling, .live, .muted, .lagging, .lost]

/-- The number of channels in a state (R193). -/
def State.countIn (s : State) (st : ChanState) : Nat := s.channels.toArray.toList.countP fun c => c.state == st

/-- What STATUS reports of the bank controller (05, R99). The outcome record is spelled in the seven bytes that 12.4 gives it
in BANK DONE, a detail that the outcome does not have being 0 (log 35). -/
def BankCtl.statusBytes (b : BankCtl) : List Byte :=
  bytesOf 2 b.activeSerial ++ bytesOf 1 b.dMax ++ bytesOf 1 b.standbyState.code ++ bytesOf 1 b.phase.code ++
    b.outcome.bytes

/-- What STATUS reports of the journal (R193), the post remaining 0xFFFF when none. -/
def State.journalStatusBytes (s : State) : List Byte :=
  bytesOf 1 (s.param .journalMode) ++ flagByte s.journal.held ++ bytesOf 2 (s.journal.post.getD 0xFFFF) ++
    bytesOf 2 s.journal.entries.length ++ bytesOf 4 s.journal.next

/-- The payload of STATUS, in the order of R193; of the two reset counts the survey port's stands first (log 39). -/
def State.statusBytes (s : State) : List Byte :=
  bytesOf 1 s.array.code ++ sixOf s.sched.front ++ s.banks.statusBytes ++ bytesOf 1 s.trig.state.code ++
    bytesOf 1 s.queue.records.length ++ bytesOf 4 s.queue.counter ++ bytesOf 1 s.alert.level.code ++
    s.journalStatusBytes ++ (s.ports.toArray.toList.flatMap fun x => bytesOf 1 x.state.code) ++
    (ChanState.all.flatMap fun st => bytesOf 2 (s.countIn st)) ++ bytesOf 2 s.survey.resets ++ bytesOf 2 s.plant.resets

/-- STATUS (R193). -/
def statusOwner (_ : List Byte) (s : State) : Response := ⟨.ok, s.statusBytes, s⟩

/-- IDENTIFY (R192). -/
def execIdentify (c : CPort) (s : State) : Host.Outcome State Fault Refusal := answerRequest c .identify identifyOwner s

/-- STATUS (R193). -/
def execStatus (c : CPort) (s : State) : Host.Outcome State Fault Refusal := answerRequest c .status statusOwner s

end Sys2Proof.Machine
end

