-- ==== Sys2Proof/Machine/Banks.lean ====
section
/-!
DEFINITION. The voxel grid and the delay banks (05): the ends of validation and the meanings of the grid and bank requests.
-/

namespace Sys2Proof.Machine

/-! ## Validation (05, R92, R93) -/

/-- The scan has found every voxel full (05, R92): PENDING, and the swap taken at once if it can be (R94). Without such a
scan nothing happens (log 2). -/
def validationPasses (s : State) : State :=
  if s.banks.standbyState = .checking ∧ s.banks.standby.firstIncomplete s.banks.grid.voxels = none then
    let b := { s.banks with
      standbyState := .pending, validated := s.banks.standby.largest s.banks.grid.voxels }
    let s1 := { s with banks := b }
    if s1.swapDue then s1.swapBanks.afterSwap else s1
  else s

/-- The scan stops at an incomplete voxel (05, R93). Without such a scan nothing happens (log 2). -/
def validationFails (s : State) : State :=
  match s.banks.standbyState, s.banks.standby.firstIncomplete s.banks.grid.voxels with
  | .checking, some v => s.endActivation (.incomplete v)
  | _, _ => s

/-- VALIDATION_PASSED (R92). -/
def execValidationPassed (s : State) : Host.Outcome State Fault Refusal := answer validationPasses s

/-- VALIDATION_FAILED (R93). -/
def execValidationFailed (s : State) : Host.Outcome State Fault Refusal := answer validationFails s

/-! ## Grid requests (05, R83, R84) -/

/-- An activation is in flight (05, R90). -/
def BankCtl.inFlight (b : BankCtl) : Bool := b.phase != .none

/-- The grid a GRID SET payload gives (12.3). -/
def givenGrid (b : List Byte) : Grid :=
  ⟨field b 0 1, field b 1 1, field b 2 1, fieldInt b 3 4, fieldInt b 7 4, fieldInt b 11 4, field b 15 4, field b 19 4,
    field b 23 4⟩

/-- One dimension of a grid is in range. -/
def dimensionOk (n : Nat) : Bool := decide (1 ≤ n ∧ n ≤ 32)

/-- The dimensions of a grid are in range (05, R83 check 4). -/
def Grid.inRange (g : Grid) : Bool :=
  dimensionOk g.nx && dimensionOk g.ny && dimensionOk g.nz && decide (g.voxels ≤ Config.maxVoxels)

/-- Both banks emptied for a grid, the serial counter kept (05, R83). -/
def BankCtl.emptied (b : BankCtl) (g : Grid) : BankCtl :=
  { BankCtl.powerOn with grid := g, serialCounter := b.serialCounter }

/-- GRID SET (R83). -/
def gridSetOwner (payload : List Byte) (s : State) : Response :=
  if s.array = .running then refuse .state s
  else if s.banks.inFlight then refuse .busy s
  else if (givenGrid payload).inRange then ⟨.ok, [], { s with banks := s.banks.emptied (givenGrid payload) }⟩
  else refuse .range s

/-- The grid record as GRID GET reports it (R84). -/
def Grid.bytes (g : Grid) : List Byte :=
  bytesOf 1 g.nx ++ bytesOf 1 g.ny ++ bytesOf 1 g.nz ++ bytesOf 2 g.voxels ++ bytesOfInt 4 g.originX ++
    bytesOfInt 4 g.originY ++ bytesOfInt 4 g.originZ ++ bytesOf 4 g.spacingX ++ bytesOf 4 g.spacingY ++
    bytesOf 4 g.spacingZ

/-- GRID GET (R84). -/
def gridGetOwner (_ : List Byte) (s : State) : Response := ⟨.ok, s.banks.grid.bytes, s⟩

/-! ## Bank requests (05, R87 to R91, R96) -/

/-- A voxel, a start channel and a count are in range for the grid (05, R87 check 2). -/
def Grid.spanOk (g : Grid) (voxel start n : Nat) : Bool :=
  decide (voxel < g.voxels ∧ start ≤ 255 ∧ 1 ≤ n ∧ n ≤ 256 ∧ start + n ≤ 256)

/-- Delays written into the standby bank, an EMPTY bank becoming LOADING (05, R87). -/
def BankCtl.writeDelays (b : BankCtl) (voxel start : Nat) (delays : List Byte) : BankCtl :=
  { b with
    standby := Store.writeRun b.standby (bankKey voxel start) delays
    standbyState := if b.standbyState = .empty then .loading else b.standbyState }

/-- BANK WRITE (R87). -/
def bankWriteOwner (payload : List Byte) (s : State) : Response :=
  let voxel := field payload 0 2
  let start := field payload 2 2
  let n := field payload 4 2
  if !s.banks.grid.spanOk voxel start n then refuse .range s
  else if s.banks.inFlight then refuse .busy s
  else ⟨.ok, [], { s with banks := s.banks.writeDelays voxel start (slice payload 6 n) }⟩

/-- The entries of a bank as BANK READ reports them: the written flag, and the delay, 0 if unwritten (R88). Each flag is one
byte (12.3), so that a read of 256 channels sends 513 bytes of payload, more than the largest that 12.6 names (log 36). -/
def Bank.entryBytes (b : Bank) (voxel start n : Nat) : List Byte :=
  (List.range n).flatMap fun i => flagByte (b.delay? voxel (start + i)).isSome ++ bytesOf 1 (b.delay voxel (start + i))

/-- The status that refuses a BANK READ, none where it is answered (R88; log 24). -/
def BankCtl.readRefusal (b : BankCtl) (role voxel start n : Nat) : Option Status :=
  if 2 ≤ role then some .range
  else
    let noActive := role == 0 && !b.hasActive
    let badSpan := !b.grid.spanOk voxel start n
    if noActive && badSpan then some (if Config.bankReadStateFirst then .state else .range)
    else if noActive then some .state
    else if badSpan then some .range
    else none

/-- BANK READ (R88; log 16 for the code of ACTIVE). -/
def bankReadOwner (payload : List Byte) (s : State) : Response :=
  let role := field payload 0 1
  let voxel := field payload 1 2
  let start := field payload 3 2
  let n := field payload 5 2
  match s.banks.readRefusal role voxel start n with
  | some st => refuse st s
  | none =>
    if role = 0 then ⟨.ok, s.banks.active.entryBytes voxel start n ++ [Config.activeBankStateCode], s⟩
    else ⟨.ok, s.banks.standby.entryBytes voxel start n ++ bytesOf 1 s.banks.standbyState.code, s⟩

/-- BANK CLEAR (R89). -/
def bankClearOwner (_ : List Byte) (s : State) : Response :=
  if s.banks.inFlight then refuse .busy s
  else if s.banks.standbyState = .empty then refuse .nothing s
  else ⟨.ok, [], { s with banks := { s.banks with standby := [], standbyState := .empty } }⟩

/-- BANK ACTIVATE (R91). -/
def bankActivateOwner (_ : List Byte) (s : State) : Response :=
  if s.banks.inFlight then refuse .busy s
  else if s.banks.standbyState = .empty then refuse .state s
  else ⟨.accepted, [], { s with banks := { s.banks with standbyState := .checking } }⟩

/-- The last activation ended in a swap (05, R96). -/
def OutcomeRec.isSwapped : OutcomeRec → Bool
  | .swapped _ _ => true
  | .empty | .incomplete _ | .aborted _ => false

/-- BANK ABORT (R96). -/
def bankAbortOwner (_ : List Byte) (s : State) : Response :=
  if s.banks.inFlight then ⟨.ok, [], s.endActivation (.aborted s.banks.phase)⟩
  else if s.banks.outcome.isSwapped then refuse .tooLate s
  else refuse .nothing s

/-- GRID_SET (R83). -/
def execGridSet (c : CPort) (s : State) : Host.Outcome State Fault Refusal := answerRequest c .gridSet gridSetOwner s

/-- GRID_GET (R84). -/
def execGridGet (c : CPort) (s : State) : Host.Outcome State Fault Refusal := answerRequest c .gridGet gridGetOwner s

/-- BANK_WRITE (R87). -/
def execBankWrite (c : CPort) (s : State) : Host.Outcome State Fault Refusal :=
  answerRequest c .bankWrite bankWriteOwner s

/-- BANK_READ (R88). -/
def execBankRead (c : CPort) (s : State) : Host.Outcome State Fault Refusal :=
  answerRequest c .bankRead bankReadOwner s

/-- BANK_CLEAR (R89). -/
def execBankClear (c : CPort) (s : State) : Host.Outcome State Fault Refusal :=
  answerRequest c .bankClear bankClearOwner s

/-- BANK_ACTIVATE (R91). -/
def execBankActivate (c : CPort) (s : State) : Host.Outcome State Fault Refusal :=
  answerRequest c .bankActivate bankActivateOwner s

/-- BANK_ABORT (R96). -/
def execBankAbort (c : CPort) (s : State) : Host.Outcome State Fault Refusal :=
  answerRequest c .bankAbort bankAbortOwner s

end Sys2Proof.Machine
end

