-- ==== Sys2Proof/Machine/Ingest.lean ====
section
/-!
DEFINITION. Ingest (03, R48 to R50, R58 to R66): the handling of a frame, its class, the write limit, the delivery of its
samples, the report of a completed tick, and with them STACK_COMPLETION, which releases the packets that wait for a slip.
-/

namespace Sys2Proof.Machine

/-! ## Checking a frame (03, R49, R50) -/

/-- The header fields of a SAMPLES body that the part uses (12.2). -/
structure SamplesHeader where
  hubId : Nat
  sequence : Nat
  asn : Nat
  samples : Nat
  channels : Nat
  deriving DecidableEq, Repr

/-- The header of a well-formed SAMPLES body, none if a check of R49 fails. -/
def samplesHeader? (body : List Byte) : Option SamplesHeader :=
  let h : SamplesHeader := ⟨field body 1 1, field body 3 2, field body 5 6, field body 11 1, field body 12 1⟩
  if field body 0 1 = 1 ∧ 16 ≤ body.length ∧ (1 ≤ h.samples ∧ h.samples ≤ 32) ∧ (1 ≤ h.channels ∧ h.channels ≤ 64) ∧
      body.length = 16 + 3 * h.samples * h.channels then some h
  else none

/-- The hub map entry a packet is decoded against (03, R50): none if the hub is unknown on this port. -/
def State.hubFor (s : State) (p : FPort) (hubId : Nat) : Option (Fin 16) :=
  if h : hubId < 16 then
    if (s.hub ⟨hubId, h⟩).valid ∧ (s.hub ⟨hubId, h⟩).port = p.val then some ⟨hubId, h⟩ else none
  else none

/-- The class of a packet (03, R59). -/
def classOf (expected : Option Nat) (gapFill asn : Nat) : PacketClass :=
  match expected with
  | none => .first
  | some e =>
    if asn = e then .contiguous
    else if e < asn then if asn ≤ e + gapFill then .gap e else .jump
    else .overlap e

/-- The packet is dropped: an overlap of which nothing remains (03, R62). -/
def PacketClass.dropped (cls : PacketClass) (asn samples : Nat) : Bool :=
  match cls with
  | .overlap e => decide (asn + samples ≤ e)
  | .first | .contiguous | .gap _ | .jump => false

/-- The error kind a class logs (03, R59). -/
def PacketClass.error : PacketClass → Option ErrKind
  | .jump => some .timeJump
  | .overlap _ => some .timeBehind
  | .first | .contiguous | .gap _ => none

/-- The first ASN a packet delivers for a channel, filled samples included (03, R60, R62). -/
def Packet.start (pk : Packet) : Nat :=
  match pk.cls with
  | .gap e => e
  | .overlap e => e
  | .first | .contiguous | .jump => pk.asn

/-- The first measured ASN a packet delivers for a channel (03, R62). -/
def Packet.firstMeasured (pk : Packet) : Nat := max pk.start pk.asn

/-- The last tick of a packet as received (03, R64). -/
def Packet.lastTick (pk : Packet) : Nat := (pk.asn + pk.samples - 1) / 4

/-- The channels of a packet's run (03, R50). -/
def Packet.run (pk : Packet) : List (Fin 256) :=
  (List.range pk.count).filterMap fun i => if h : pk.base + i < 256 then some ⟨pk.base + i, h⟩ else none

/-- The measured sample of a packet for channel j at an ASN: sample-major order (03, R49). -/
def Packet.sampleAt (pk : Packet) (body : List Byte) (j : Fin 256) (asn : Nat) : Int :=
  fieldInt body (16 + 3 * ((asn - pk.asn) * pk.count + (j.val - pk.base))) 3

/-! ## A completed tick (01, R18) -/

/-- The three receivers of a tick report. -/
inductive Receives where
  | supervisor
  | rejoin
  | scheduler
  deriving DecidableEq, Repr

/-- A tick report taken by one receiver. -/
def State.receive (s : State) (j : Fin 256) (r : TickReport) : Receives → State
  | .supervisor => s.notified j fun s => s.supervise j r
  | .rejoin => s.rejoinTest j
  | .scheduler => s.scheduleReport j r.tick

/-- A tick report handed to its receivers, which act independently (01, R18): in any order (log 4). -/
def State.report (s : State) (j : Fin 256) (r : TickReport) : State :=
  s.each [.supervisor, .rejoin, .scheduler] fun s who => s.receive j r who

/-! ## Delivery (03, R63) -/

/-- A sample conditioned by a channel that has a record (01, R5 to R8, R18). -/
def State.condition (s : State) (j : Fin 256) (asn : Nat) (x : Option Int) : State :=
  let c := s.chan j
  match c.cond with
  | some r =>
    match c.takeSample s.params r asn x with
    | (c1, some t) => (s.setChan j c1).report j t
    | (c1, none) => s.setChan j c1
  | none => s

/-- A LOST channel re-enters at this sample (02, R36): the first measured sample of the packet, at or after the front
window. -/
def State.reenters (s : State) (pk : Packet) (asn : Nat) : Bool :=
  match s.sched.front with
  | some f => asn == pk.firstMeasured && decide (64 * f ≤ asn)
  | none => false

/-- A restart of one channel reported to the scheduler (01, R3; 02, R29, R36). -/
def State.restartAt (s : State) (j : Fin 256) (asn : Nat) : State := s.notified j fun s => s.restartChan j asn

/-- A sample delivered to a channel (03, R63), by the state the channel has at that moment. -/
def State.sampleIn (s : State) (pk : Packet) (j : Fin 256) (asn : Nat) (x : Option Int) : State :=
  match (s.chan j).state with
  | .off => s
  | .await => if x.isSome then (s.restartAt j asn).condition j asn x else s
  | .lost => if x.isSome && s.reenters pk asn then (s.restartAt j asn).condition j asn x else s
  | .settling | .live | .lagging | .muted => s.condition j asn x

/-- The sample of a packet at an ASN: filled below the packet's first ASN (03, R60). -/
def Packet.sample? (pk : Packet) (body : List Byte) (j : Fin 256) (asn : Nat) : Option Int :=
  if asn < pk.asn then none else some (pk.sampleAt body j asn)

/-- The samples still to be delivered: each channel with its next ASN. Every channel's samples go in ASN order, and no
order among the channels is implied (03, R63; log 4). -/
def deliverLoop (pk : Packet) (body : List Byte) : Nat → List (Fin 256 × Nat) → State → State
  | 0, _, s => s
  | fuel + 1, work, s =>
    match work with
    | [] => s
    | w :: ws =>
      let pick := if (w :: ws).length = 1 then (0, s.order) else choose s.order (w :: ws).length
      let e := (w :: ws).getD pick.1 w
      let s1 := ({ s with order := pick.2 }).sampleIn pk e.1 e.2 (pk.sample? body e.1 e.2)
      let rest :=
        if e.2 + 1 < pk.asn + pk.samples then (w :: ws).set pick.1 (e.1, e.2 + 1) else (w :: ws).eraseIdx pick.1
      deliverLoop pk body fuel rest s1

/-- A taken packet delivered to the channels of its run (03, R63). -/
def State.deliver (s : State) (pk : Packet) (body : List Byte) : State :=
  deliverLoop pk body (pk.count * (pk.asn + pk.samples - pk.start)) (pk.run.map fun j => (j, pk.start)) s

/-! ## Handling (03, R48, R58, R59, R64) -/

/-- The handling of a port's frame ends: the handling place empties (03, R48). -/
def State.endHandling (s : State) (p : FPort) : State := s.setPort p { s.port p with handling := none }

/-- An error of the frame in handling logged, and the frame discarded. -/
def State.discardFrame (s : State) (p : FPort) (body : List Byte) (k : ErrKind) : State :=
  (s.logError p k (headerOfBody body)).endHandling p

/-- The delivery of the packet in the handling place of a port, which ends its handling. -/
def State.deliverHandled (s : State) (p : FPort) : State :=
  match (s.port p).handling with
  | some ⟨body, some pk⟩ => (s.deliver pk body).endHandling p
  | some ⟨_, none⟩ | none => s

/-- The packet reaches the write limit (03, R64): the front is defined, some channel of the run is not OFF, and the last
tick is at or above 16F + 696. -/
def State.beyondLimit (s : State) (pk : Packet) : Bool :=
  match s.sched.front with
  | some f => (pk.run.any fun j => (s.chan j).state != .off) && decide (16 * f + Config.writeSpan ≤ pk.lastTick)
  | none => false

/-- The write limit check of a taken packet (03, R64, R65): it waits for a slip while a window is stacked, and is delivered
otherwise, after the slip that it needs (log 11). -/
def State.limitThenDeliver (s : State) (p : FPort) (pk : Packet) : State :=
  if s.beyondLimit pk then
    if s.sched.state = .stacking then s.holdSlip ⟨p, pk.lastTick⟩
    else (s.slipAtOnce ⟨p, pk.lastTick⟩).deliverHandled p
  else s.deliverHandled p

/-- The sequence check of R58. -/
def State.checkSequence (s : State) (p : FPort) (hub : Fin 16) (h : SamplesHeader) (body : List Byte) : State :=
  match (s.hub hub).expSeq with
  | some q => if h.sequence = q then s else s.logError p .sequence (headerOfBody body)
  | none => s

/-- The error of a class logged (03, R59). -/
def State.logClass (s : State) (p : FPort) (cls : PacketClass) (body : List Byte) : State :=
  match cls.error with
  | some k => s.logError p k (headerOfBody body)
  | none => s

/-- A packet taken at the hub map (03, R59): the expectations move on, and the packet stands in the handling place. -/
def State.takePacket (s : State) (p : FPort) (hub : Fin 16) (h : SamplesHeader) (pk : Packet) (body : List Byte) :
    State :=
  let e := s.hub hub
  (s.setHub hub { e with expSeq := some ((h.sequence + 1) % 65536), expAsn := some (h.asn + h.samples) }).setPort p
    { s.port p with handling := some ⟨body, some pk⟩ }

/-- The channels of a run with a conditioning record restarted at an ASN (01, R3). -/
def State.restartAll (s : State) (run : List (Fin 256)) (asn : Nat) : State :=
  s.each run fun s j => if (s.chan j).state.conditioned then s.restartChan j asn else s

/-- The restarts that the continuity check makes when it takes a packet classed first or a time jump, all of them ahead of
the scheduler's test and of the write limit check (02, R37; 03, R59, R61; log 10). -/
def State.restartRun (s : State) (pk : Packet) : State :=
  match pk.cls with
  | .first | .jump => s.notifiedAll pk.run fun s => s.restartAll pk.run pk.asn
  | .contiguous | .gap _ | .overlap _ => s

/-- The continuity check of a decoded packet in RUNNING, then what its class calls for (03, R58, R59). -/
def State.continuity (s : State) (p : FPort) (hub : Fin 16) (h : SamplesHeader) (body : List Byte) : State :=
  let e := s.hub hub
  let cls := classOf e.expAsn (s.param .gapFill) h.asn
  let s1 := (s.checkSequence p hub h body).logClass p cls body
  if cls.dropped h.asn h.samples then s1.endHandling p
  else
    let pk : Packet := ⟨e.base, e.count, h.asn, h.samples, cls⟩
    ((s1.takePacket p hub h pk body).restartRun pk).limitThenDeliver p pk

/-- The handling of the frame in a port's handling place (03, R49, R50, R58 to R66). -/
def State.handleFrame (s : State) (p : FPort) : State :=
  match (s.port p).handling with
  | some ⟨body, none⟩ =>
    match samplesHeader? body with
    | none => s.discardFrame p body .frameForm
    | some h =>
      match s.hubFor p h.hubId with
      | none => s.discardFrame p body .hubUnknown
      | some hub =>
        if h.channels ≠ (s.hub hub).count then s.discardFrame p body .shape
        else if s.array = .running then s.continuity p hub h body
        else s.endHandling p
  | some ⟨_, some _⟩ | none => s

/-- The waiting frame moves into the empty handling place and is handled (03, R48). -/
def State.promote (s : State) (p : FPort) : State :=
  let x := s.port p
  match x.handling, x.waiting with
  | none, some body => (s.setPort p { x with handling := some ⟨body, none⟩, waiting := none }).handleFrame p
  | none, none | some _, _ => s

/-- A good frame offered to the places of a port (03, R48). -/
def State.offerFrame (s : State) (p : FPort) (body : List Byte) : State :=
  let x := s.port p
  match x.handling, x.waiting with
  | none, _ => ((s.setPort p { x with handling := some ⟨body, none⟩ }).handleFrame p).promote p
  | some _, none => s.setPort p { x with waiting := some body }
  | some _, some _ => s.logError p .receiveOverflow (headerOfBody body)

/-! ## Stack completion (06, R115) -/

/-- A packet released by a slip taken at a completion is delivered, and the waiting frame follows (03, R48, R65; log 11). -/
def State.deliverReleased (s : State) (p : FPort) : State :=
  if (s.port p).slipWait then s else (s.deliverHandled p).promote p

/-- The completion of the window in flight (06, R115). Without one nothing completes. The packets that slips have released
follow port by port in the order of their requests, the waiting frame of a port (R48) ahead of the next port's packet
(log 32). -/
def stackCompletes (s : State) : State :=
  match s.sched.window with
  | some w =>
    let ports := s.sched.slips.map fun r => r.port
    ports.foldl State.deliverReleased (s.complete w (s.windowResult w)).dueTest
  | none => s

/-- STACK_COMPLETION (R115). -/
def execStackCompletion (s : State) : Host.Outcome State Fault Refusal := answer stackCompletes s

end Sys2Proof.Machine
end

