-- ==== Sys2Proof/Machine/FieldPorts.lean ====
section
/-!
DEFINITION. The field ports and the hub map (03): the receiver's events on a line, the link timer, and the meanings of the
port and hub map requests.
-/

namespace Sys2Proof.Machine

/-! ## The line (03, R46, R47) -/

/-- The receiver works: the port is UP or DOWN (03, R46). -/
def FieldPort.listens (x : FieldPort) : Bool := x.state == .up || x.state == .down

/-- A frame start: the link timer restarts from 0, a DOWN port returns to UP (03, R46, R47). -/
def FieldPort.frameStart (x : FieldPort) : FieldPort := { x with state := .up, linkTimer := some 0 }

/-- What a receiver has found on the line of a port; nothing once the port has failed (03, R46, R48, R51). -/
def State.rxEvent (s : State) (p : FPort) (e : RxEvent) : State :=
  if (s.port p).listens then
    match e with
    | .start => s.setPort p (s.port p).frameStart
    | .badLength len => s.logError p .frameForm (headerOf len [])
    | .badCrc len body => s.logError p .frameCheck (headerOf len body)
    | .good body => s.offerFrame p body
  else s

/-- The receiver left where the line has brought it, unless the port has failed meanwhile. -/
def State.keepReceiver (s : State) (p : FPort) (rx : Receiver) : State :=
  if (s.port p).listens then s.setPort p { s.port p with rx := rx } else s

/-- Bytes of the line of a field port (03, R46); ignored in DISABLED and FAILED. -/
def lineBytes (p : FPort) (bs : List Byte) (s : State) : State :=
  if (s.port p).listens then
    let r := feed Config.fieldMaxBody (s.port p).rx bs
    (r.1.foldl (fun s e => s.rxEvent p e) s).keepReceiver p r.2
  else s

/-- A frame in reception abandoned (03, R47): the receiver hunts, and one that hunts already goes on from where it is. -/
def Receiver.abandoned : Receiver → Receiver
  | .receiving _ => .hunting false
  | .hunting seen => .hunting seen

/-- The link timer of an UP port reaches 200 ms (03, R47): DOWN, the frame in reception abandoned, LINK_DOWN logged. -/
def linkTimesOut (p : FPort) (s : State) : State :=
  if (s.port p).state = .up then
    (s.setPort p { s.port p with state := .down, rx := (s.port p).rx.abandoned, linkTimer := none }).logError p .linkDown
      HeaderLog.absent
  else s

/-- FRAME_START (R46). -/
def execFrameStart (p : FPort) (s : State) : Host.Outcome State Fault Refusal := answer (lineBytes p syncPair) s

/-- FIELD_LENGTH_REFUSED (R46). -/
def execFieldLengthRefused (p : FPort) (len : BitVec 16) (s : State) : Host.Outcome State Fault Refusal :=
  answer (lineBytes p (bytesOf 2 len.toNat)) s

/-- FIELD_FRAME_COMPLETE (R46). -/
def execFieldFrameComplete (p : FPort) (bytes : List Byte) (s : State) : Host.Outcome State Fault Refusal :=
  answer (lineBytes p bytes) s

/-- LINK_DOWN (R47). -/
def execLinkDown (p : FPort) (s : State) : Host.Outcome State Fault Refusal := answer (linkTimesOut p) s

/-! ## Port requests (03, R52, R53) -/

/-- The expectations of a hub made undefined (03, R54). -/
def HubEntry.forget (e : HubEntry) : HubEntry := { e with expSeq := none, expAsn := none }

/-- The expectations of every hub made undefined whose entry satisfies a test. -/
def State.forgetHubs (s : State) (test : HubEntry → Bool) : State :=
  { s with hubs := vmap (fun e => if test e then e.forget else e) s.hubs }

/-- A port brought UP (03, R52). -/
def FieldPort.enabled (x : FieldPort) : FieldPort :=
  { x with
    state := .up, rx := .hunting false, linkTimer := some 0, handling := none, waiting := none, slipWait := false }

/-- PORT ENABLE (R52; log 28). -/
def portEnableOwner (payload : List Byte) (s : State) : Response :=
  match fport? (field payload 0 1) with
  | some p =>
    if (s.port p).listens then refuse .nothing s
    else
      ⟨.ok, [], ((s.setPort p (s.port p).enabled).withdraw p).forgetHubs fun e => e.valid && e.port == p.val⟩
  | none => refuse .range s

/-- PORT DISABLE (R53). -/
def portDisableOwner (payload : List Byte) (s : State) : Response :=
  match fport? (field payload 0 1) with
  | some p => if (s.port p).state = .disabled then refuse .nothing s else ⟨.ok, [], s.stopPort p .disabled⟩
  | none => refuse .range s

/-- PORT_ENABLE (R52). -/
def execPortEnable (c : CPort) (s : State) : Host.Outcome State Fault Refusal :=
  answerRequest c .portEnable portEnableOwner s

/-- PORT_DISABLE (R53). -/
def execPortDisable (c : CPort) (s : State) : Host.Outcome State Fault Refusal :=
  answerRequest c .portDisable portDisableOwner s

/-! ## Hub map requests (03, R55 to R57) -/

/-- The hub map entry an id names, none above 15. -/
def hub? (v : Nat) : Option (Fin 16) := if h : v < 16 then some ⟨v, h⟩ else none

/-- The fields of a HUB MAP SET are in range (03, R55 check 1). -/
def hubRangeOk (port base count : Nat) : Bool :=
  decide (port < 4 ∧ base ≤ 255 ∧ 1 ≤ count ∧ count ≤ 64 ∧ base + count ≤ 256)

/-- A run shares a channel with the run of an entry. -/
def HubEntry.shares (e : HubEntry) (base count : Nat) : Bool :=
  decide (base < e.base + e.count ∧ e.base < base + count)

/-- A run shares a channel with the run of another valid entry (03, R55 check 2). -/
def State.runTaken (s : State) (hub : Fin 16) (base count : Nat) : Bool :=
  (enumFin s.hubs).any fun e => e.1 != hub && e.2.valid && e.2.shares base count

/-- Some channel of the run of an entry is not OFF (03, R55 check 3, R56). -/
def State.runInUse (s : State) (e : HubEntry) : Bool :=
  (enumFin s.channels).any fun c => decide (e.base ≤ c.1.val ∧ c.1.val < e.base + e.count) && c.2.state != .off

/-- HUB MAP SET (R55). -/
def hubMapSetOwner (payload : List Byte) (s : State) : Response :=
  let port := field payload 1 1
  let base := field payload 2 2
  let count := field payload 4 2
  match hub? (field payload 0 1) with
  | some hub =>
    if !hubRangeOk port base count then refuse .range s
    else if s.runTaken hub base count then refuse .range s
    else if s.array = .running ∧ (s.hub hub).valid ∧ s.runInUse (s.hub hub) then refuse .state s
    else ⟨.ok, [], s.setHub hub ⟨true, port, base, count, none, none⟩⟩
  | none => refuse .range s

/-- HUB MAP CLEAR (R56). -/
def hubMapClearOwner (payload : List Byte) (s : State) : Response :=
  match hub? (field payload 0 1) with
  | some hub =>
    if !(s.hub hub).valid then refuse .nothing s
    else if s.array = .running ∧ s.runInUse (s.hub hub) then refuse .state s
    else ⟨.ok, [], s.setHub hub { (s.hub hub).forget with valid := false }⟩
  | none => refuse .range s

/-- An entry as HUB MAP GET reports it (R57; log 15). -/
def HubEntry.bytes (e : HubEntry) : List Byte :=
  flagByte e.valid ++ bytesOf 1 e.port ++ bytesOf 2 e.base ++ bytesOf 2 e.count ++ presentOf 2 e.expSeq ++
    sixOf e.expAsn

/-- HUB MAP GET (R57). -/
def hubMapGetOwner (payload : List Byte) (s : State) : Response :=
  match hub? (field payload 0 1) with
  | some hub => ⟨.ok, (s.hub hub).bytes, s⟩
  | none => refuse .range s

/-- HUB_MAP_SET (R55). -/
def execHubMapSet (c : CPort) (s : State) : Host.Outcome State Fault Refusal :=
  answerRequest c .hubMapSet hubMapSetOwner s

/-- HUB_MAP_CLEAR (R56). -/
def execHubMapClear (c : CPort) (s : State) : Host.Outcome State Fault Refusal :=
  answerRequest c .hubMapClear hubMapClearOwner s

/-- HUB_MAP_GET (R57). -/
def execHubMapGet (c : CPort) (s : State) : Host.Outcome State Fault Refusal :=
  answerRequest c .hubMapGet hubMapGetOwner s

end Sys2Proof.Machine
end

