-- ==== Sys2Proof/Machine/RunControl.lean ====
section
/-!
DEFINITION. Run control (11): the RESET input, the end of initialization, ARRAY START, ARRAY STOP, and the millisecond of
the internal timebase.
-/

namespace Sys2Proof.Machine

/-! ## RESET and initialization (11, R194, R195) -/

/-- Every record at its power-on value, the waiting commands and the order tape kept, which are the model's own. -/
def State.poweredOn (s : State) : State := { State.reset with pending := s.pending, order := s.order }

/-- RESET asserted (11, R194): whatever is in progress is abandoned, both lines are low, and nothing is taken until the
release. The records already stand at the power-on values that the release gives them (log 18). -/
def State.inReset (s : State) : State := { s.poweredOn with resetAsserted := true }

/-- RESET_ASSERTED (R194). -/
def execResetAsserted (s : State) : Host.Outcome State Fault Refusal := .next s.inReset

/-- RESET_RELEASED (R194): INITIALIZING, every record at its power-on value. Without an assertion there is no release. -/
def execResetReleased (s : State) : Host.Outcome State Fault Refusal :=
  .next (if s.resetAsserted then s.poweredOn else s)

/-- The end of initialization (11, R195). -/
def initializationEnds (s : State) : State :=
  if s.array = .initializing then ({ s with array := .stopped }).raiseBoth .start else s

/-- INITIALIZATION_COMPLETE (R195). -/
def execInitializationComplete (s : State) : Host.Outcome State Fault Refusal := answer initializationEnds s

/-! ## ARRAY START (11, R196) -/

/-- ARRAY START (R196). -/
def arrayStartOwner (_ : List Byte) (s : State) : Response :=
  if s.array = .running ∨ s.banks.hasActive = false then refuse .state s
  else ⟨.ok, [], ({ s.forgetHubs (fun _ => true) with array := .running }).offer (.run false)⟩

/-- ARRAY_START (R196). -/
def execArrayStart (c : CPort) (s : State) : Host.Outcome State Fault Refusal :=
  answerRequest c .arrayStart arrayStartOwner s

/-! ## ARRAY STOP (11, R197) -/

/-- A packet that waits for a slip discarded without being logged (03, R66). -/
def FieldPort.dropSlipWait (x : FieldPort) : FieldPort :=
  if x.slipWait then { x with handling := none, slipWait := false } else x

/-- Step 1: the window in flight abandoned, the timer stopped, the slip requests withdrawn and their packets discarded. -/
def State.stopStacking (s : State) : State :=
  { s with
    sched := { s.sched with window := none, timer := none, slips := [] }
    ports := vmap FieldPort.dropSlipWait s.ports }

/-- A channel at ARRAY STOP (02, R26, R38). -/
def Channel.stopped (c : Channel) : Channel :=
  if c.state = .off then { c with weightInForce := c.cfg.weight }
  else
    { c.discard with
      state := .await
      ring := []
      weightInForce := c.cfg.weight
      changed := c.changed || c.state != .await }

/-- Step 3: the channels (02, R38), CHANNEL raised once if any state changed, and no CHANNEL entry. -/
def State.stopChannels (s : State) : State :=
  let s1 := { s with channels := vmap Channel.stopped s.channels }
  if s.channels.toArray.toList.any fun c => c.state != .off && c.state != .await then s1.raise .survey .channel else s1

/-- Every port's waiting frame follows into an emptied handling place (03, R48; log 31). -/
def State.promoteAll (s : State) : State := (List.finRange 4).foldl State.promote s

/-- The stop, block by block (11, R197), steps 1 to 8. -/
def State.stopArray (s : State) : State :=
  let s2 := s.stopStacking.truncateTrigger (s.sched.front.getD 0)
  let s5 := { s2.stopChannels.forgetHubs (fun _ => true) with sched := Sched.powerOn }
  let s6 := s5.offer (.run true)
  ({ s6 with array := .stopped }).considerSwap

/-- ARRAY STOP (R197). -/
def arrayStopOwner (_ : List Byte) (s : State) : Response :=
  if s.array = .running then ⟨.ok, [], s.stopArray.promoteAll⟩ else refuse .nothing s

/-- ARRAY_STOP (R197). -/
def execArrayStop (c : CPort) (s : State) : Host.Outcome State Fault Refusal :=
  answerRequest c .arrayStop arrayStopOwner s

/-! ## The internal timebase (log 5) -/

/-- A millisecond of a link timer (03, R47). -/
def tickLink (s : State) (p : FPort) : State :=
  match (s.port p).state, (s.port p).linkTimer with
  | .up, some n =>
    if Config.linkTimeout ≤ n + 1 then linkTimesOut p s
    else s.setPort p { s.port p with linkTimer := some (n + 1) }
  | _, _ => s

/-- A millisecond of the hold-off timer (06, R106, R108). -/
def tickHoldOff (s : State) : State :=
  match s.sched.state, s.sched.timer with
  | .holding, some n => if n ≤ 1 then holdOffRunsOut s else { s with sched := { s.sched with timer := some (n - 1) } }
  | _, _ => s

/-- A millisecond of the amber dwell (08, R157). -/
def tickDwell (s : State) : State :=
  match s.alert.dwell with
  | .running n => if n ≤ 1 then dwellRunsOut s else s.setAlert { s.alert with dwell := .running (n - 1) }
  | .stopped | .expired => s

/-- One millisecond of the timebase: the link timers, the hold-off timer, the dwell (log 5). -/
def millisecond (s : State) : State := tickDwell (tickHoldOff ((List.finRange 4).foldl tickLink s))

end Sys2Proof.Machine
end

