-- ==== Sys2Proof/Machine/Dispatch.lean ====
section
/-!
DEFINITION. The meaning of every command, one arm per constructor of Instr.
-/

namespace Sys2Proof.Machine

def exec (i : Instr) (s : State) : Host.Outcome State Fault Refusal :=
  match i with
  | .resetAsserted => Sys2Proof.Machine.execResetAsserted s
  | .resetReleased => Sys2Proof.Machine.execResetReleased s
  | .initializationComplete => Sys2Proof.Machine.execInitializationComplete s
  | .frameStart p => Sys2Proof.Machine.execFrameStart p s
  | .fieldLengthRefused p len => Sys2Proof.Machine.execFieldLengthRefused p len s
  | .fieldFrameComplete p bytes => Sys2Proof.Machine.execFieldFrameComplete p bytes s
  | .linkDown p => Sys2Proof.Machine.execLinkDown p s
  | .holdOffExpiry => Sys2Proof.Machine.execHoldOffExpiry s
  | .stackCompletion => Sys2Proof.Machine.execStackCompletion s
  | .validationPassed => Sys2Proof.Machine.execValidationPassed s
  | .validationFailed => Sys2Proof.Machine.execValidationFailed s
  | .dwellExpiry => Sys2Proof.Machine.execDwellExpiry s
  | .controlFrameReceived c bytes => Sys2Proof.Machine.execControlFrameReceived c bytes s
  | .controlLengthRefused c len => Sys2Proof.Machine.execControlLengthRefused c len s
  | .transmissionEnd c => Sys2Proof.Machine.execTransmissionEnd c s
  | .portReset c => Sys2Proof.Machine.execPortReset c s
  | .breakEnd c => Sys2Proof.Machine.execBreakEnd c s
  | .unknownRequest c => Sys2Proof.Machine.execUnknownRequest c s
  | .identify c => Sys2Proof.Machine.execIdentify c s
  | .status c => Sys2Proof.Machine.execStatus c s
  | .paramGet c => Sys2Proof.Machine.execParamGet c s
  | .paramSet c => Sys2Proof.Machine.execParamSet c s
  | .noticeMaskSet c => Sys2Proof.Machine.execNoticeMaskSet c s
  | .noticeMaskClear c => Sys2Proof.Machine.execNoticeMaskClear c s
  | .arrayStart c => Sys2Proof.Machine.execArrayStart c s
  | .arrayStop c => Sys2Proof.Machine.execArrayStop c s
  | .channelConfig c => Sys2Proof.Machine.execChannelConfig c s
  | .channelEnable c => Sys2Proof.Machine.execChannelEnable c s
  | .channelDisable c => Sys2Proof.Machine.execChannelDisable c s
  | .channelQuery c => Sys2Proof.Machine.execChannelQuery c s
  | .channelAlarmClear c => Sys2Proof.Machine.execChannelAlarmClear c s
  | .portEnable c => Sys2Proof.Machine.execPortEnable c s
  | .portDisable c => Sys2Proof.Machine.execPortDisable c s
  | .hubMapSet c => Sys2Proof.Machine.execHubMapSet c s
  | .hubMapClear c => Sys2Proof.Machine.execHubMapClear c s
  | .hubMapGet c => Sys2Proof.Machine.execHubMapGet c s
  | .errorReport c => Sys2Proof.Machine.execErrorReport c s
  | .errorConfig c => Sys2Proof.Machine.execErrorConfig c s
  | .errorClear c => Sys2Proof.Machine.execErrorClear c s
  | .gridSet c => Sys2Proof.Machine.execGridSet c s
  | .gridGet c => Sys2Proof.Machine.execGridGet c s
  | .bankWrite c => Sys2Proof.Machine.execBankWrite c s
  | .bankRead c => Sys2Proof.Machine.execBankRead c s
  | .bankClear c => Sys2Proof.Machine.execBankClear c s
  | .bankActivate c => Sys2Proof.Machine.execBankActivate c s
  | .bankAbort c => Sys2Proof.Machine.execBankAbort c s
  | .zoneSet c => Sys2Proof.Machine.execZoneSet c s
  | .zoneGet c => Sys2Proof.Machine.execZoneGet c s
  | .eventFetch c => Sys2Proof.Machine.execEventFetch c s
  | .eventAck c => Sys2Proof.Machine.execEventAck c s
  | .alertStatus c => Sys2Proof.Machine.execAlertStatus c s
  | .alertAck c => Sys2Proof.Machine.execAlertAck c s
  | .injectionSet c => Sys2Proof.Machine.execInjectionSet c s
  | .journalRead c => Sys2Proof.Machine.execJournalRead c s
  | .journalRelease c => Sys2Proof.Machine.execJournalRelease c s
  | .journalClear c => Sys2Proof.Machine.execJournalClear c s
  | .controlFrameStart c => Sys2Proof.Machine.execControlFrameStart c s

end Sys2Proof.Machine
end

