-- ==== Sys2Proof/Safety.lean ====
section
/-!
DEFINITION. The words the statements are written in: a request waiting on a port, its answer, the commands that take
requests, and the laws that the manual gives its records, as predicates over states.
-/

namespace Sys2Proof.Machine

/-! ## Requests -/

/-- The command that takes a request on a port. -/
def Req.instr : Req → CPort → Instr
  | .identify => .identify | .status => .status | .paramGet => .paramGet | .paramSet => .paramSet
  | .noticeMaskSet => .noticeMaskSet | .noticeMaskClear => .noticeMaskClear
  | .arrayStart => .arrayStart | .arrayStop => .arrayStop
  | .channelConfig => .channelConfig | .channelEnable => .channelEnable | .channelDisable => .channelDisable
  | .channelQuery => .channelQuery | .channelAlarmClear => .channelAlarmClear
  | .portEnable => .portEnable | .portDisable => .portDisable
  | .hubMapSet => .hubMapSet | .hubMapClear => .hubMapClear | .hubMapGet => .hubMapGet
  | .errorReport => .errorReport | .errorConfig => .errorConfig | .errorClear => .errorClear
  | .gridSet => .gridSet | .gridGet => .gridGet | .bankWrite => .bankWrite | .bankRead => .bankRead
  | .bankClear => .bankClear | .bankActivate => .bankActivate | .bankAbort => .bankAbort
  | .zoneSet => .zoneSet | .zoneGet => .zoneGet | .eventFetch => .eventFetch | .eventAck => .eventAck
  | .alertStatus => .alertStatus | .alertAck => .alertAck | .injectionSet => .injectionSet
  | .journalRead => .journalRead | .journalRelease => .journalRelease | .journalClear => .journalClear

/-- The part is out of RESET, and the oldest request of a port that can take one is `req` with a tag and a payload. -/
structure Asks (s : State) (c : CPort) (req : Req) (tag : Byte) (payload : List Byte) : Prop where
  outOfReset : s.resetAsserted = false
  oldest : s.takeable c = some ⟨tag, req.code, payload⟩

/-- The request passes the checks ahead of its owner's own (10, R182): the port may use it, its payload has the right
length, and the array is not INITIALIZING unless the request is answered then. -/
structure Passes (s : State) (c : CPort) (req : Req) (payload : List Byte) : Prop where
  allowed : req.allowed c = true
  length : req.lengthOk payload = true
  ready : s.array = .initializing → req.duringInit = true

/-- A request that waits on a port and passes the checks ahead of its owner's own. -/
structure Served (s : State) (c : CPort) (req : Req) (tag : Byte) (payload : List Byte) : Prop where
  asks : Asks s c req tag payload
  passes : Passes s c req payload

/-- A state with the reply to a request of tag `tag` in the port's reply place, both transmitters having chosen. -/
def State.replied (t : State) (c : CPort) (req : Req) (tag : Byte) (st : Status) (payload : List Byte) : State :=
  (t.putReply c ⟨tag, req.code, st, payload⟩).transmitBoth

/-! ## The laws of the records -/

/-- Each line follows the alert level (08, R160). -/
def LinesFollowLevel (s : State) : Prop :=
  s.amberLine = (s.alert.level != .green) ∧ s.redLine = (s.alert.level == .red)

/-- The journal holds at most 512 entries, its serials rise strictly, each lies below the next serial, or at it once the
last serial has been used (09, R166, R168). -/
structure JournalOk (j : Journal) : Prop where
  room : j.entries.length ≤ Config.journalPlaces
  rising : (j.entries.map fun e => e.serial).Pairwise (· < ·)
  below : ∀ e ∈ j.entries, e.serial < j.next ∨ (j.spent = true ∧ e.serial = j.next)
  counter : 1 ≤ j.next ∧ j.next ≤ Config.max32
  last : j.spent = true → j.next = Config.max32

/-- The queue holds at most 32 records, their sequences rise strictly and none lies above the counter (08, R149, R150). -/
structure QueueOk (q : EventQueue) : Prop where
  room : q.records.length ≤ Config.queuePlaces
  rising : (q.records.map fun e => e.sequence).Pairwise (· < ·)
  counted : ∀ e ∈ q.records, e.sequence ≤ q.counter
  counter : q.counter ≤ Config.max32

/-- A control port's places are within bounds, each kind is pending at most once, none is pending while masked, and each
pending kind is one the port receives (10, R179, R185). -/
structure CtlOk (c : CPort) (x : CtlPort) : Prop where
  queue : x.queue.length ≤ Config.requestPlaces
  refusals : x.refusals.length ≤ Config.refusalPlaces
  once : x.pending.Nodup
  unmasked : ∀ k ∈ x.pending, k ∉ x.mask
  received : ∀ k ∈ x.pending, k.receivedBy c = true
  resets : x.resets ≤ Config.max16

/-- A channel has a conditioning record exactly in the states SETTLING, LIVE, LAGGING and MUTED, and its ring is in
canonical form (01, R1, R15). -/
structure ChanOk (c : Channel) : Prop where
  record : c.cond.isSome = c.state.conditioned
  ring : Store.wf c.ring = true

/-- Every channel keeps its law. -/
def ChannelsOk (s : State) : Prop := ∀ j, ChanOk (s.chan j)

/-- Every parameter lies in its range, and each default-zone amber threshold at or below its red one (10, R190; 07,
R148). -/
structure ParamsOk (ps : Params) : Prop where
  range : ∀ i : ParamId, i.row.least ≤ ps.get i ∧ ps.get i ≤ i.row.greatest
  shut : ps.get .amberShut ≤ ps.get .redShut
  circ : ps.get .amberCirc ≤ ps.get .redCirc
  stim : ps.get .amberStim ≤ ps.get .redStim

/-- Every zone rule's bounds and thresholds are in range and in order (07, R138). -/
def ZonesOk (zs : Vector ZoneRule 8) : Prop := ∀ i, (vget zs i).inRange = true

/-- The run of a valid entry lies within the channels, and the runs of two valid entries share none (03, R54). -/
structure HubsOk (hs : Vector HubEntry 16) : Prop where
  inside : ∀ h, (vget hs h).valid = true → (vget hs h).port < 4 ∧ (vget hs h).base + (vget hs h).count ≤ 256
  apart : ∀ g h, g ≠ h → (vget hs g).valid = true → (vget hs h).valid = true →
    (vget hs g).shares (vget hs h).base (vget hs h).count = false

/-- The trigger record's law (07, R124): in IDLE no candidate and the counts 0, in ARMED a candidate and an armed count of
at least 1, in OPEN a candidate and an open count of at least 1. -/
def TriggerOk (t : Trigger) : Prop :=
  match t.state with
  | .idle => t = Trigger.powerOn
  | .armed => t.candidate.isSome = true ∧ 1 ≤ t.armedCount
  | .opened => t.candidate.isSome = true ∧ 1 ≤ t.openCount

/-- The bank controller's law (05, R85, R90): without an active bank the active serial and D_max are 0, an active bank has
a serial of at least 1 that is the counter, and both banks are in canonical form. -/
structure BanksOk (b : BankCtl) : Prop where
  absent : b.hasActive = false → b.activeSerial = 0 ∧ b.dMax = 0
  present : b.hasActive = true → 1 ≤ b.activeSerial ∧ b.activeSerial = b.serialCounter
  active : Store.wf b.active = true
  standby : Store.wf b.standby = true

/-- While the array is RUNNING there is an active bank (05, R85). -/
def RunningHasBank (s : State) : Prop := s.array = .running → s.banks.hasActive = true

/-- The scheduler's record has the shape of its state (06, R100): the front is undefined exactly in UNSET, the hold-off
timer runs exactly in HOLDING, a window is in flight exactly in STACKING and is the front's, and outside RUNNING the
scheduler is UNSET. -/
structure SchedOk (s : State) : Prop where
  front : s.sched.front = none ↔ s.sched.state = .unset
  timer : s.sched.timer.isSome = true ↔ s.sched.state = .holding
  flight : s.sched.window.isSome = true ↔ s.sched.state = .stacking
  named : ∀ w, s.sched.window = some w → s.sched.front = some w.window
  stopped : s.array ≠ .running → s.sched.state = .unset

/-- The front has not gone back (06, R101): where it was defined it is defined, and not lower. -/
def FrontNotBack (s t : State) : Prop := ∀ f, s.sched.front = some f → ∃ g, t.sched.front = some g ∧ f ≤ g

end Sys2Proof.Machine
end

