-- ==== Sys2Proof/Certificates/Slice0/Obligations.lean ====
section
/-!
DEFINITION. The statements for the provers, from the numbered rules of the manual. A request's statement speaks of the
state after the request has left its queue, `s.popRequest c`, and of that state with the reply in place, `State.replied`.
Every step ends with the choices of both transmitters, `State.transmitBoth`: that they are made there is the model's
reading of R184 (log 9).
-/

open Sys2Proof Sys2Proof.Machine

/-! ## Steps -/

/-- A step with a command at the front of the queue is the meaning of that command on the state with the queue's rest. -/
def Obligations.StepRunsFrontCommand : Prop :=
  ∀ (c : Instr) (rest : List Instr) (s : State), step { s with pending := c :: rest } = exec c { s with pending := rest }

/-- On an empty queue out of RESET a millisecond of the timebase passes (the model's choice, log 5): the link timers of FP0
to FP3, then the hold-off timer, then the dwell move on by one, each of them that runs, whatever the others do; one that
reaches its end has inside the millisecond the effect that LINK_DOWN, HOLD_OFF_EXPIRY or DWELL_EXPIRY has. With the link
timers stopped and neither of the other two about to run out nothing else changes. While RESET is asserted nothing moves. -/
def Obligations.EmptyQueueLetsAMillisecondPass : Prop :=
  (∀ (s : State) (link : State → FPort → State) (holdOff dwell : State → State), s.pending = [] →
    s.resetAsserted = false →
    link = (fun s p => match (s.port p).state, (s.port p).linkTimer with
      | .up, some n =>
        if n + 1 < 200 then s.setPort p { s.port p with linkTimer := some (n + 1) } else linkTimesOut p s
      | _, _ => s) →
    holdOff = (fun s => match s.sched.state, s.sched.timer with
      | .holding, some n =>
        if 1 < n then { s with sched := { s.sched with timer := some (n - 1) } } else holdOffRunsOut s
      | _, _ => s) →
    dwell = (fun s => match s.alert.dwell with
      | .running n => if 1 < n then s.setAlert { s.alert with dwell := .running (n - 1) } else dwellRunsOut s
      | .stopped | .expired => s) →
    step s = .next (dwell (holdOff (link (link (link (link s 0) 1) 2) 3))).transmitBoth) ∧
  (∀ (s : State) (p : FPort), s.resetAsserted = false →
    exec (.linkDown p) s = .next (linkTimesOut p s).transmitBoth ∧
    exec .holdOffExpiry s = .next (holdOffRunsOut s).transmitBoth ∧
    exec .dwellExpiry s = .next (dwellRunsOut s).transmitBoth) ∧
  (∀ (s : State) (left dwell : Nat), s.pending = [] → s.resetAsserted = false →
    (∀ p, (s.port p).linkTimer = none) → s.sched.state = .holding → s.sched.timer = some (left + 2) →
    s.alert.dwell = .running (dwell + 2) →
    step s = .next (State.transmitBoth
      (({ s with sched := { s.sched with timer := some (left + 1) } } : State).setAlert
        { s.alert with dwell := .running (dwell + 1) }))) ∧
  (∀ s : State, s.pending = [] → s.resetAsserted = true → step s = .next s)

/-- Every command answers a next state in every state: the part has no command that stops it. -/
def Obligations.EveryCommandAnswersANextState : Prop := ∀ (c : Instr) (s : State), ∃ t : State, exec c s = .next t

/-! ## Run control (11) -/

/-- R194: RESET asserted at any moment abandons what is in progress, drives both lines low and keeps the part in RESET.
R194: while RESET is asserted the part takes nothing.
R194, R195: at the release of RESET the part is INITIALIZING with every record at its power-on value. What the part shows
while RESET is asserted, and the values right after its release, are the model's reading (logs 18, 19). -/
def Obligations.TheResetLine : Prop :=
  (∀ s : State, ∃ t : State, exec .resetAsserted s = .next t ∧ t.resetAsserted = true ∧ t.amberLine = false ∧
     t.redLine = false ∧ t.sched.window = none ∧ t.banks.phase = .none ∧ (∀ c, (t.ctl c).tx = none) ∧
     t.journal.entries = [] ∧ t.pending = s.pending) ∧
  (∀ (c : Instr) (s : State), s.resetAsserted = true → c ≠ .resetAsserted → c ≠ .resetReleased → exec c s = .next s) ∧
  (∀ s : State, s.resetAsserted = true →
     exec .resetReleased s = .next { State.reset with pending := s.pending, order := s.order })

/-- R195: the values of the power-on records, as the rule lists them.
R68: the severity of each error kind after reset, none being masked. -/
def Obligations.ResetValues : Prop :=
  State.reset.array = .initializing ∧
  (∀ j, (State.reset.chan j).state = .off ∧ (State.reset.chan j).ring = [] ∧ (State.reset.chan j).cond = none) ∧
  State.reset.banks.active = [] ∧ State.reset.banks.standby = [] ∧ State.reset.banks.standbyState = .empty ∧
  State.reset.banks.hasActive = false ∧
  (State.reset.banks.grid.nx, State.reset.banks.grid.ny, State.reset.banks.grid.nz) = (1, 1, 1) ∧
  State.reset.queue.records = [] ∧ State.reset.queue.counter = 0 ∧
  State.reset.journal.entries = [] ∧ State.reset.journal.next = 1 ∧ State.reset.param .journalMode = 0 ∧
  (∀ p, (State.reset.port p).state = .disabled) ∧
  (∀ p k, ((State.reset.port p).log.kind k).flag = false ∧ ((State.reset.port p).log.kind k).count = 0) ∧
  State.reset.alert.level = .green ∧ State.reset.amberLine = false ∧ State.reset.redLine = false ∧
  (∀ i : ParamId, State.reset.param i = i.row.default) ∧
  (∀ p, (ErrKind.all.map fun k => ((State.reset.port p).log.kind k).masked) = List.replicate 10 false ∧
    (ErrKind.all.map fun k => ((State.reset.port p).log.kind k).severity) =
      [.advisory, .nonfatal, .nonfatal, .nonfatal, .nonfatal, .advisory, .advisory, .nonfatal, .nonfatal, .advisory])

/-- R195: initialization ends in STOPPED, a START notice raised on both control ports. -/
def Obligations.InitializationCompletes : Prop :=
  ∀ s : State, s.resetAsserted = false → s.array = .initializing →
    exec .initializationComplete s = .next (({ s with array := .stopped } : State).raiseBoth .start).transmitBoth

/-- R196: ARRAY START with an active bank in STOPPED: the array RUNNING, every hub's expectations undefined, RUN START
offered; it is answered STATE in RUNNING and without an active bank. -/
def Obligations.ArrayStart : Prop :=
  ∀ (s : State) (c : CPort) (tag : Byte) (payload : List Byte), Served s c .arrayStart tag payload →
    (s.array = .stopped → s.banks.hasActive = true →
      exec (.arrayStart c) s = .next (State.replied
        (({ s.popRequest c with
            array := .running
            hubs := vmap (fun e => { e with expSeq := none, expAsn := none }) s.hubs } : State).offer (.run false))
        c .arrayStart tag .ok [])) ∧
    (s.array = .running ∨ s.banks.hasActive = false →
      exec (.arrayStart c) s = .next ((s.popRequest c).replied c .arrayStart tag .state []))

/-- R197: ARRAY STOP in RUNNING acts block by block in the order of the rule: the window in flight, the timer and the slip
requests dropped with the packets that wait; the truncated close; the channels, with CHANNEL raised if the state of any
changed; the hubs' expectations undefined; the scheduler UNSET; RUN STOP offered; the array STOPPED; a PENDING swap taken.
Each port's waiting frame then follows into an emptied place (log 31).
R132, R133: a truncation leaves IDLE alone, drops an ARMED candidate and closes an OPEN event TRUNCATED.
R197, R117, R38: with no packet in a port's places: the array STOPPED, the scheduler UNSET with nothing in flight, the
trigger unit IDLE, every channel OFF or AWAIT with no record, every hub's expectations undefined, the queue of commands, the
parameters, the zone rules and the grid untouched; in STOPPED it is answered NOTHING.
The swap offers BANK before it raises BANK DONE (the model's choice, log 45). -/
def Obligations.ArrayStop : Prop :=
  (∀ (s : State) (c : CPort) (tag : Byte) (payload : List Byte), Served s c .arrayStop tag payload →
    (s.array = .running → ∀ s1 s2 s3 s4 s5 s6 s7 : State,
      s1 = { s.popRequest c with
        sched := { s.sched with window := none, timer := none, slips := [] }
        ports := vmap (fun x => if x.slipWait then { x with handling := none, slipWait := false } else x) s.ports } →
      s2 = s1.truncateTrigger (s.sched.front.getD 0) →
      s3 = { s2 with channels := vmap (fun x =>
        if x.state = .off then { x with weightInForce := x.cfg.weight }
        else { x with
          state := .await, cond := none, ring := [], noisyHold := ⟨false, 0⟩, quietHold := ⟨false, 0⟩
          weightInForce := x.cfg.weight, changed := x.changed || x.state != .await }) s2.channels } →
      s4 = (if ∃ j, (s2.chan j).state ≠ .off ∧ (s2.chan j).state ≠ .await then s3.raise .survey .channel else s3) →
      s5 = { s4 with
        hubs := vmap (fun e => { e with expSeq := none, expAsn := none }) s4.hubs
        sched := ⟨none, .unset, none, none, []⟩ } →
      s6 = { s5.offer (.run true) with array := .stopped } →
      s7 = (if s6.banks.standbyState = .pending then s6.swapBanks else s6) →
      exec (.arrayStop c) s =
        .next (State.replied ((((s7.promote 0).promote 1).promote 2).promote 3) c .arrayStop tag .ok [])) ∧
    (s.array = .running → TriggerOk s.trig →
      (∀ p, (s.port p).handling = none ∧ (s.port p).waiting = none ∧ (s.port p).slipWait = false) →
      ∃ t : State, exec (.arrayStop c) s = .next (t.replied c .arrayStop tag .ok []) ∧
        t.array = .stopped ∧ t.sched = Sched.powerOn ∧ t.trig = Trigger.powerOn ∧
        (∀ j, ((t.chan j).state = if (s.chan j).state = .off then .off else .await) ∧
          (t.chan j).weightInForce = (s.chan j).cfg.weight ∧ (t.chan j).cfg = (s.chan j).cfg ∧
          (t.chan j).alarms = (s.chan j).alarms ∧
          ((s.chan j).state ≠ .off → (t.chan j).cond = none ∧ (t.chan j).ring = [])) ∧
        (∀ h, (t.hub h).expSeq = none ∧ (t.hub h).expAsn = none ∧ (t.hub h).valid = (s.hub h).valid) ∧
        t.params = s.params ∧ t.zones = s.zones ∧ t.ports = s.ports ∧ t.banks.grid = s.banks.grid ∧
        t.pending = s.pending) ∧
    (s.array = .stopped →
      exec (.arrayStop c) s = .next ((s.popRequest c).replied c .arrayStop tag .nothing []))) ∧
  (∀ (s : State) (f : Nat),
    (s.trig.state = .idle → s.truncateTrigger f = s) ∧
    (s.trig.state = .armed → s.truncateTrigger f =
      ({ s with trig := ⟨.idle, none, 0, 0, 0⟩ } : State).offer (.trigger .armed .idle f false)) ∧
    (∀ best, s.trig.state = .opened → s.trig.candidate = some best → s.truncateTrigger f =
      (({ s with trig := ⟨.idle, none, 0, 0, 0⟩ } : State).offer (.trigger .opened .idle f false)).closeEvent
        ⟨best, s.trig.openCount, false⟩ true)) ∧
  (∀ (s : State) (p : FPort),
    (∀ body, (s.port p).handling = none → (s.port p).waiting = some body →
      s.promote p = (s.setPort p { s.port p with handling := some ⟨body, none⟩, waiting := none }).handleFrame p) ∧
    ((s.port p).handling ≠ none ∨ (s.port p).waiting = none → s.promote p = s))

/-! ## Taking a request (10) -/

/-- R182 check 2, R183: a request that its port may not use is answered PERMISSION, in every array state, with no
effect.
R199: a payload of another length than the table's is answered FORM with no effect.
R195: in INITIALIZING every request but IDENTIFY, STATUS and the two mask requests is answered NOT_READY with no
effect.
R182 check 1: a request whose code is none of the part's is answered UNKNOWN with no effect.
R183: which requests each port may use. Section 12.3: the code and the payload length of every request. -/
def Obligations.ChecksAheadOfTheOwner : Prop :=
  (∀ (s : State) (c : CPort) (req : Req) (tag : Byte) (payload : List Byte), Asks s c req tag payload →
     req.allowed c = false → exec (req.instr c) s = .next ((s.popRequest c).replied c req tag .permission [])) ∧
  (∀ (s : State) (c : CPort) (req : Req) (tag : Byte) (payload : List Byte), Asks s c req tag payload →
     req.allowed c = true → req.lengthOk payload = false →
     exec (req.instr c) s = .next ((s.popRequest c).replied c req tag .form [])) ∧
  (∀ (s : State) (c : CPort) (req : Req) (tag : Byte) (payload : List Byte), Asks s c req tag payload →
     req.allowed c = true → req.lengthOk payload = true → s.array = .initializing →
     req ≠ .identify → req ≠ .status → req ≠ .noticeMaskSet → req ≠ .noticeMaskClear →
     exec (req.instr c) s = .next ((s.popRequest c).replied c req tag .notReady [])) ∧
  (∀ (s : State) (c : CPort) (r : Request), s.resetAsserted = false → s.takeable c = some r →
     Req.ofCode r.code = none →
     exec (.unknownRequest c) s =
       .next ((s.popRequest c).putReply c ⟨r.tag, r.code, .unknown, []⟩).transmitBoth) ∧
  (∀ (r : Req), r.allowed .survey = decide (r ≠ .injectionSet) ∧
     r.allowed .plant = decide (r ∈ [.identify, .status, .paramGet, .eventFetch, .alertStatus, .alertAck, .noticeMaskSet,
       .noticeMaskClear, .injectionSet])) ∧
  (∀ e ∈ ([(.identify, 0x01, 0), (.status, 0x02, 0), (.paramGet, 0x03, 1), (.paramSet, 0x04, 5),
       (.noticeMaskSet, 0x05, 2), (.noticeMaskClear, 0x06, 2), (.arrayStart, 0x10, 0), (.arrayStop, 0x11, 0),
       (.channelConfig, 0x20, 14), (.channelEnable, 0x21, 2), (.channelDisable, 0x22, 2), (.channelQuery, 0x23, 2),
       (.channelAlarmClear, 0x24, 3), (.portEnable, 0x30, 1), (.portDisable, 0x31, 1), (.hubMapSet, 0x32, 6),
       (.hubMapClear, 0x33, 1), (.hubMapGet, 0x34, 1), (.errorReport, 0x38, 1), (.errorConfig, 0x39, 5),
       (.errorClear, 0x3A, 4), (.gridSet, 0x40, 27), (.gridGet, 0x41, 0), (.bankRead, 0x43, 7), (.bankClear, 0x44, 0),
       (.bankActivate, 0x45, 0), (.bankAbort, 0x46, 0), (.zoneSet, 0x50, 21), (.zoneGet, 0x51, 1), (.eventFetch, 0x60, 4),
       (.eventAck, 0x61, 4), (.alertStatus, 0x68, 0), (.alertAck, 0x69, 4), (.injectionSet, 0x6A, 1),
       (.journalRead, 0x70, 4), (.journalRelease, 0x71, 0), (.journalClear, 0x72, 0)] : List (Req × Byte × Nat)),
     e.1.code = e.2.1 ∧ ∀ payload, (e.1.lengthOk payload = true ↔ payload.length = e.2.2)) ∧
  (Req.code .bankWrite = 0x42 ∧ ∀ payload, (Req.lengthOk .bankWrite payload = true ↔
     6 ≤ payload.length ∧ payload.length = 6 + field payload 4 2)) ∧
  (∀ b : Byte, Req.ofCode b = none ↔ ∀ r : Req, r.code ≠ b)

/-- A request command whose request is not the oldest that the port can take changes nothing but the transmitters'
choices (the model's choice, log 2). -/
def Obligations.ACommandWithoutItsRequestChangesNothing : Prop :=
  ∀ (s : State) (c : CPort) (req : Req), s.resetAsserted = false →
    (∀ r, s.takeable c = some r → r.code ≠ req.code) → exec (req.instr c) s = .next s.transmitBoth

/-- R192: IDENTIFY returns the fixed identity on both ports in every array state and changes nothing, each value in the
bytes that the general rule of section 12.3 gives it (log 15); a payload is answered FORM. -/
def Obligations.Identify : Prop :=
  ∀ (s : State) (c : CPort) (tag : Byte) (payload : List Byte), Asks s c .identify tag payload →
    (payload = [] → exec (.identify c) s = .next ((s.popRequest c).replied c .identify tag .ok
      [0x54, 0xA3, 0x72, 0x00, 3, 1, 0, 0x10, 0, 32, 2, 0, 4])) ∧
    (payload ≠ [] → exec (.identify c) s = .next ((s.popRequest c).replied c .identify tag .form []))

/-- R193: STATUS returns the summary of the whole part on both ports in every array state and changes nothing (how its values
are spelled in bytes: log 15; the outcome record: log 35; the survey port's reset count first: log 39). -/
def Obligations.StatusSummary : Prop :=
  ∀ (s : State) (c : CPort) (tag : Byte), Asks s c .status tag [] →
    exec (.status c) s = .next ((s.popRequest c).replied c .status tag .ok
      (bytesOf 1 s.array.code ++ sixOf s.sched.front ++
        (bytesOf 2 s.banks.activeSerial ++ bytesOf 1 s.banks.dMax ++ bytesOf 1 s.banks.standbyState.code ++
          bytesOf 1 s.banks.phase.code ++ s.banks.outcome.bytes) ++
        bytesOf 1 s.trig.state.code ++ bytesOf 1 s.queue.records.length ++ bytesOf 4 s.queue.counter ++
        bytesOf 1 s.alert.level.code ++
        (bytesOf 1 (s.param .journalMode) ++ flagByte s.journal.held ++ bytesOf 2 (s.journal.post.getD 0xFFFF) ++
          bytesOf 2 s.journal.entries.length ++ bytesOf 4 s.journal.next) ++
        (s.ports.toArray.toList.flatMap fun x => bytesOf 1 x.state.code) ++
        (ChanState.all.flatMap fun st => bytesOf 2 (s.channels.toArray.toList.countP fun x => x.state == st)) ++
        bytesOf 2 s.survey.resets ++ bytesOf 2 s.plant.resets))

/-- R191: PARAM GET returns the value held, the range and the default, and changes nothing; an identifier that names no
parameter is answered RANGE.
R190, R148: PARAM SET of a tuning parameter takes the nearest value of its range, a default-zone amber threshold at
most its red one and a red one at least its amber one; the reply is OK if the value given was taken, else CLAMPED, and no
other parameter changes.
R190: PARAM SET of a mode parameter takes one of its codes, and refuses any other RANGE with the value held; an
identifier that names no parameter is answered RANGE with the identifier and, for the value held, a value that is free (log
17).
R190's table: the identifier, range, default and kind of every parameter. -/
def Obligations.ParamRequests : Prop :=
  (∀ (s : State) (c : CPort) (tag : Byte) (payload : List Byte), Served s c .paramGet tag payload →
     (∀ i : ParamId, i.row.code = field payload 0 1 →
       exec (.paramGet c) s = .next ((s.popRequest c).replied c .paramGet tag .ok
         (bytesOf 4 (s.param i) ++ bytesOf 4 i.row.least ++ bytesOf 4 i.row.greatest ++ bytesOf 4 i.row.default))) ∧
     ((∀ i : ParamId, i.row.code ≠ field payload 0 1) →
       exec (.paramGet c) s = .next ((s.popRequest c).replied c .paramGet tag .range []))) ∧
  (∀ (s : State) (c : CPort) (tag : Byte) (payload : List Byte) (i : ParamId) (v w : Nat),
     Served s c .paramSet tag payload → i.row.code = field payload 0 1 → v = field payload 1 4 → i.row.mode = false →
     (w = match i with
       | .amberShut => min (min 3825 v) (s.param .redShut)
       | .redShut => max (min 3825 v) (s.param .amberShut)
       | .amberCirc => min (min 3825 v) (s.param .redCirc)
       | .redCirc => max (min 3825 v) (s.param .amberCirc)
       | .amberStim => min (min 3825 v) (s.param .redStim)
       | .redStim => max (min 3825 v) (s.param .amberStim)
       | _ => max i.row.least (min i.row.greatest v)) →
     exec (.paramSet c) s = .next (State.replied { s.popRequest c with params := vset s.params i.place w } c .paramSet tag
       (if w = v then .ok else .clamped) (bytesOf 1 i.row.code ++ bytesOf 4 w))) ∧
  (∀ (s : State) (c : CPort) (tag : Byte) (payload : List Byte), Served s c .paramSet tag payload →
     (∀ i : ParamId, i.row.code = field payload 0 1 → i.row.mode = true →
       (field payload 1 4 ≤ 1 →
         exec (.paramSet c) s = .next (State.replied { s.popRequest c with params := vset s.params i.place (field payload 1 4) }
           c .paramSet tag .ok (bytesOf 1 i.row.code ++ bytesOf 4 (field payload 1 4)))) ∧
       (1 < field payload 1 4 →
         exec (.paramSet c) s = .next ((s.popRequest c).replied c .paramSet tag .range
           (bytesOf 1 i.row.code ++ bytesOf 4 (s.param i))))) ∧
     ((∀ i : ParamId, i.row.code ≠ field payload 0 1) →
       exec (.paramSet c) s = .next ((s.popRequest c).replied c .paramSet tag .range
         (bytesOf 1 (field payload 0 1) ++
           bytesOf 4 (Config.unheldParamValue (BitVec.ofNat 8 (field payload 0 1))).toNat)))) ∧
  (∀ e ∈ ([(.ks, ⟨0x01, 1, 4, 2, false⟩), (.kl, ⟨0x02, 5, 10, 7, false⟩), (.freezeLevel, ⟨0x03, 0, 239, 16, false⟩),
       (.ltaFloor, ⟨0x04, 1, 65535, 64, false⟩), (.muteHold, ⟨0x05, 1, 60, 10, false⟩),
       (.releaseHold, ⟨0x06, 1, 60, 10, false⟩), (.lostDepth, ⟨0x07, 64, 640, 375, false⟩),
       (.gapFill, ⟨0x08, 0, 64, 16, false⟩), (.holdOff, ⟨0x09, 0, 3000, 1000, false⟩), (.smin, ⟨0x0A, 1, 256, 8, false⟩),
       (.pickLevel, ⟨0x0B, 0, 239, 24, false⟩), (.t1, ⟨0x0C, 1, 3824, 160, false⟩), (.kmin, ⟨0x0D, 1, 256, 6, false⟩),
       (.confirmLimit, ⟨0x0E, 1, 4, 2, false⟩), (.tRelease, ⟨0x0F, 0, 3824, 96, false⟩),
       (.quietClose, ⟨0x10, 1, 8, 3, false⟩), (.eMax, ⟨0x11, 1, 16, 12, false⟩), (.pickRadius, ⟨0x12, 0, 8, 4, false⟩),
       (.pickCap, ⟨0x13, 0, 48, 24, false⟩), (.amberShut, ⟨0x15, 0, 3825, 480, false⟩),
       (.redShut, ⟨0x16, 0, 3825, 960, false⟩), (.amberCirc, ⟨0x17, 0, 3825, 400, false⟩),
       (.redCirc, ⟨0x18, 0, 3825, 800, false⟩), (.amberStim, ⟨0x19, 0, 3825, 320, false⟩),
       (.redStim, ⟨0x1A, 0, 3825, 640, false⟩), (.rehearsal, ⟨0x1B, 0, 1, 0, true⟩),
       (.amberDwell, ⟨0x1C, 1, 1440, 60, false⟩), (.journalLevel, ⟨0x1D, 0, 3824, 96, false⟩),
       (.postCount, ⟨0x1E, 0, 255, 64, false⟩), (.journalMode, ⟨0x1F, 0, 1, 0, true⟩)] : List (ParamId × ParamRow)),
     e.1.row = e.2)

/-- R186, R187: a mask request that names maskable kinds its port receives masks them, dropping them from the pending set,
or unmasks them, raising nothing; the reply carries the mask after the request, on NOTHING as well (log 14). An empty set,
a bit that names no kind, and a kind that cannot be masked or is not received on the port are answered RANGE.
R185: a kind that is raised joins the pending set as the newest unless it is masked or pending; which kinds can be masked,
and which the plant port receives.
R198: a set of kinds has a bit for each kind. -/
def Obligations.NoticeMasks : Prop :=
  (∀ (s : State) (c : CPort) (tag : Byte) (payload : List Byte) (ks : List NoticeKind),
    noticeSet? (field payload 0 2) = some ks → ks ≠ [] →
    (∀ k ∈ ks, k.maskable = true ∧ k.receivedBy c = true) →
    (Asks s c .noticeMaskSet tag payload → payload.length = 2 →
      ((∃ k ∈ ks, k ∉ (s.ctl c).mask) →
        ∃ x : CtlPort, exec (.noticeMaskSet c) s =
          .next (State.replied ((s.popRequest c).setCtl c x) c .noticeMaskSet tag .ok (noticeSetOf x.mask)) ∧
          (∀ k, k ∈ x.mask ↔ k ∈ (s.ctl c).mask ∨ k ∈ ks) ∧
          x = { (s.popRequest c).ctl c with mask := x.mask, pending := (s.ctl c).pending.filter fun k => !ks.contains k }) ∧
      ((∀ k ∈ ks, k ∈ (s.ctl c).mask) →
        exec (.noticeMaskSet c) s =
          .next ((s.popRequest c).replied c .noticeMaskSet tag .nothing (noticeSetOf (s.ctl c).mask)))) ∧
    (Asks s c .noticeMaskClear tag payload → payload.length = 2 →
      ((∃ k ∈ ks, k ∈ (s.ctl c).mask) →
        ∃ x : CtlPort, exec (.noticeMaskClear c) s =
          .next (State.replied ((s.popRequest c).setCtl c x) c .noticeMaskClear tag .ok (noticeSetOf x.mask)) ∧
          (∀ k, k ∈ x.mask ↔ k ∈ (s.ctl c).mask ∧ k ∉ ks) ∧ x = { (s.popRequest c).ctl c with mask := x.mask }) ∧
      ((∀ k ∈ ks, k ∉ (s.ctl c).mask) →
        exec (.noticeMaskClear c) s =
          .next ((s.popRequest c).replied c .noticeMaskClear tag .nothing (noticeSetOf (s.ctl c).mask))))) ∧
  (∀ (s : State) (c : CPort) (tag : Byte) (payload : List Byte), payload.length = 2 →
    noticeSet? (field payload 0 2) = none ∨ field payload 0 2 = 0 ∨
      (∃ ks, noticeSet? (field payload 0 2) = some ks ∧ ∃ k ∈ ks, k.maskable = false ∨ k.receivedBy c = false) →
    (Asks s c .noticeMaskSet tag payload →
      exec (.noticeMaskSet c) s = .next ((s.popRequest c).replied c .noticeMaskSet tag .range [])) ∧
    (Asks s c .noticeMaskClear tag payload →
      exec (.noticeMaskClear c) s = .next ((s.popRequest c).replied c .noticeMaskClear tag .range []))) ∧
  (∀ (s : State) (c : CPort) (k : NoticeKind),
    (k ∈ (s.ctl c).mask ∨ k ∈ (s.ctl c).pending → s.raise c k = s) ∧
    (k ∉ (s.ctl c).mask → k ∉ (s.ctl c).pending →
      s.raise c k = s.setCtl c { s.ctl c with pending := (s.ctl c).pending ++ [k] }) ∧
    s.raiseBoth k = (s.raise .survey k).raise .plant k) ∧
  (∀ (v : Nat) (ks : List NoticeKind),
    (noticeSet? v = some ks ↔ v < 1024 ∧ ks = NoticeKind.all.filter fun k => v.testBit (k.code - 1)) ∧
    ∃ u, noticeSetOf ks = bytesOf 2 u ∧ u < 1024 ∧ ∀ k : NoticeKind, u.testBit (k.code - 1) = true ↔ k ∈ ks) ∧
  (∀ k : NoticeKind, (k.maskable = true ↔ k ≠ .start ∧ k ≠ .portReset) ∧ k.receivedBy .survey = true ∧
    (k.receivedBy .plant = true ↔ k = .start ∨ k = .portReset ∨ k = .event ∨ k = .alert))

/-! ## The control ports (10) -/

/-- R180, R181: a good REQUEST frame on a control port's line joins a receive queue of fewer than four frames, is answered
BUSY at a full queue with room in the refusals, and is discarded when both are full. A good frame of another class or of
fewer than three bytes has no effect, and in BREAK no byte is taken.
R46, R180: a frame whose CRC fails is discarded, and its bytes are searched again from the one after its 0xB6: all goes on as
on a port that hunts and is given those bytes. -/
def Obligations.ControlFrameReceived : Prop :=
  (∀ (s : State) (c : CPort) (tag code : Byte) (payload : List Byte), s.resetAsserted = false →
    (s.ctl c).rx = .line (.receiving []) → payload.length + 3 ≤ 1024 →
    exec (.controlFrameReceived c ((linkFrame ([0x02, tag, code] ++ payload)).drop 2)) s =
      .next (s.setCtl c
        (if (s.ctl c).queue.length < 4 then
          { s.ctl c with rx := .line (.hunting false), queue := (s.ctl c).queue ++ [⟨tag, code, payload⟩] }
        else if (s.ctl c).refusals.length < 8 then
          { s.ctl c with rx := .line (.hunting false), refusals := (s.ctl c).refusals ++ [⟨tag, code⟩] }
        else { s.ctl c with rx := .line (.hunting false) })).transmitBoth) ∧
  (∀ (s : State) (c : CPort) (body : List Byte), s.resetAsserted = false →
    1 ≤ body.length → body.length ≤ 1024 → body.head? ≠ some 0x02 ∨ body.length < 3 →
    (s.ctl c).rx = .line (.receiving []) →
    exec (.controlFrameReceived c ((linkFrame body).drop 2)) s =
      .next (s.setCtl c { s.ctl c with rx := .line (.hunting false) }).transmitBoth) ∧
  (∀ (s : State) (c : CPort) (bytes : List Byte), s.resetAsserted = false → (s.ctl c).rx = .inBreak →
    exec (.controlFrameReceived c bytes) s = .next s.transmitBoth) ∧
  (∀ (s : State) (c : CPort) (got bytes buf : List Byte) (len : Nat), s.resetAsserted = false →
    (s.ctl c).rx = .line (.receiving got) → buf = got ++ bytes → len = field buf 0 2 → 1 ≤ len → len ≤ 1024 →
    len + 4 ≤ buf.length → crc (buf.take (len + 2)) ≠ BitVec.ofNat 16 (field buf (len + 2) 2) →
    exec (.controlFrameReceived c bytes) s =
      exec (.controlFrameReceived c (0x49 :: buf)) (s.setCtl c { s.ctl c with rx := .line (.hunting false) }))

/-- R180, R46: a sync pair on a hunting control port starts a frame, and a length of 0 or above 1024 ends it at once, the
bytes after its 0xB6 being searched again; neither has another effect. -/
def Obligations.ControlFraming : Prop :=
  ∀ (s : State) (c : CPort) (len : BitVec 16), s.resetAsserted = false →
    ((s.ctl c).rx = .line (.hunting false) →
      exec (.controlFrameStart c) s = .next (s.setCtl c { s.ctl c with rx := .line (.receiving []) }).transmitBoth) ∧
    ((s.ctl c).rx = .line (.receiving []) → len.toNat = 0 ∨ 1024 < len.toNat →
      exec (.controlLengthRefused c len) s = .next (s.setCtl c
        { s.ctl c with
          rx := .line (if len = 0xB649#16 then .receiving [] else .hunting (len.toNat % 256 == 0xB6)) }).transmitBoth)

/-- R184: at the end of a transmission the transmitter is idle, the reply place empties if the frame was its reply, and
the transmitters then choose.
R184: an idle transmitter sends the reply formed first, else the notice raised longest ago; a busy one goes on. A refusal
sent leaves one fewer ahead of the reply that waits behind it.
R42: a CHANNEL notice clears the changed flags of the channels it lists.
R185: a notice's payload is read when it is sent, field by field as section 12.4 spells it for its kind (the seconds left of
a dwell that does not run: log 38).
A reply that waits goes ahead of a PORT RESET as of any notice (the model's choice against R188, log 46). -/
def Obligations.Transmission : Prop :=
  (∀ (s : State) (c : CPort) (f : TxFrame), s.resetAsserted = false → (s.ctl c).tx = some f →
     exec (.transmissionEnd c) s = .next (s.setCtl c
       { s.ctl c with tx := none, reply := if f.isReply then none else (s.ctl c).reply }).transmitBoth) ∧
  (∀ (s : State) (c : CPort),
     ((s.ctl c).tx ≠ none → s.transmit c = s) ∧
     ((s.ctl c).tx = none → ∀ rp, (s.ctl c).reply = some rp → (rp.ahead = 0 ∨ (s.ctl c).refusals = []) →
       s.transmit c = s.setCtl c
         { s.ctl c with reply := some { rp with begun := true }, tx := some ⟨linkFrame rp.reply.body, true⟩ }) ∧
     ((s.ctl c).tx = none → ∀ r rest, (s.ctl c).refusals = r :: rest →
       (∀ rp, (s.ctl c).reply = some rp → rp.ahead ≠ 0) →
       s.transmit c = s.setCtl c { s.ctl c with
         refusals := rest
         reply := match (s.ctl c).reply with
           | some rp => some { rp with ahead := rp.ahead - 1 }
           | none => none
         tx := some ⟨linkFrame [0x03, r.tag, r.code, 0x03], false⟩ }) ∧
     ((s.ctl c).tx = none → (s.ctl c).reply = none → (s.ctl c).refusals = [] → ∀ (k : NoticeKind) (rest : List NoticeKind)
       (t : State), (s.ctl c).pending = k :: rest →
       t = s.setCtl c { s.ctl c with
         pending := rest
         tx := some ⟨linkFrame ([0x04] ++ bytesOf 1 k.code ++ s.noticePayload c k), false⟩ } →
       (k ≠ .channel → s.transmit c = t) ∧
       (k = .channel →
         s.transmit c = { t with channels := vmap (fun x => { x with changed := false }) s.channels })) ∧
     ((s.ctl c).tx = none → (s.ctl c).reply = none → (s.ctl c).refusals = [] → (s.ctl c).pending = [] →
       s.transmit c = s)) ∧
  (∀ (s : State) (c : CPort),
     s.noticePayload c .start = [0x54, 0xA3, 0x72, 0x00, 3] ++ bytesOf 1 s.array.code ∧
     s.noticePayload c .portReset = bytesOf 2 (s.ctl c).resets ∧
     s.noticePayload c .event =
       (match s.queue.last with
         | some m => bytesOf 4 m.sequence ++ bytesOf 1 m.level.code ++ bytesOf 1 m.zone ++ bytesOf 2 m.bBest
         | none => [0, 0, 0, 0, 0, 0, 0, 0]) ++
       bytesOf 1 s.queue.records.length ++ bytesOf 4 ((s.queue.records.head?.map fun e => e.sequence).getD 0) ++
       bytesOf 4 ((s.queue.records.getLast?.map fun e => e.sequence).getD 0) ∧
     s.noticePayload c .alert =
       bytesOf 1 s.alert.level.code ++ bytesOf 4 s.alert.cause ++ flagByte s.alert.acknowledged ++
         bytesOf 1 s.alert.dwell.code ++
         bytesOf 4 (match s.alert.dwell with
           | .running ms => (ms + 999) / 1000
           | .stopped | .expired => 0) ++
         bytesOf 1 s.alert.injection.code ∧
     (∀ l : List (Fin 256), l = (List.finRange 256).filter (fun j => (s.chan j).changed) →
       s.noticePayload c .channel = bytesOf 2 l.length ++ l.flatMap fun j =>
         bytesOf 1 j.val ++ bytesOf 1 (s.chan j).state.code ++ alarmByte (s.chan j).alarms) ∧
     s.noticePayload c .fieldError = (List.finRange 4).flatMap (fun p =>
       bytesOf 1 (s.port p).state.code ++
         errorSetOf (ErrKind.all.filter fun k =>
           ((s.port p).log.kind k).flag && !((s.port p).log.kind k).masked) ++
         bytesOf 1 ((s.port p).log.uncorrectable.toNat + 2 * (s.port p).log.correctable.toNat) ++
         (match (s.port p).log.first with
           | some k => bytesOf 1 k.place.val
           | none => [0xFF])) ∧
     s.noticePayload c .journalHeld =
       flagByte s.journal.held ++ bytesOf 4 (s.journal.cause.getD 0) ++
         bytesOf 4 ((s.journal.entries.head?.map fun e => e.serial).getD 0) ++
         bytesOf 4 ((s.journal.entries.getLast?.map fun e => e.serial).getD 0) ∧
     s.noticePayload c .bankDone =
       s.banks.outcome.bytes ++ bytesOf 1 s.banks.standbyState.code ++ bytesOf 1 s.banks.phase.code ++
         bytesOf 2 s.banks.activeSerial ++ bytesOf 1 s.banks.dMax ∧
     s.noticePayload c .plantLink =
       bytesOf 2 s.plant.resets ++ noticeSetOf s.plant.mask ++ bytesOf 1 s.alert.level.code ++
         bytesOf 4 s.alert.cause ∧
     s.noticePayload c .injection = bytesOf 1 s.alert.injection.code) ∧
  (∀ (serial d v : Nat) (ph : Phase),
     OutcomeRec.bytes .empty = [0, 0, 0, 0, 0, 0, 0] ∧
     OutcomeRec.bytes (.swapped serial d) = [1] ++ bytesOf 2 serial ++ bytesOf 1 d ++ [0, 0, 0] ∧
     OutcomeRec.bytes (.incomplete v) = [2, 0, 0, 0] ++ bytesOf 2 v ++ [0] ∧
     OutcomeRec.bytes (.aborted ph) = [3, 0, 0, 0, 0, 0] ++ bytesOf 1 ph.code) ∧
  (∀ r : Reply, r.body = [0x03, r.tag, r.code] ++ bytesOf 1 r.status.code ++ r.payload)

/-- R188, R189: a port reset empties the queue, the refusals, the reply not yet begun, the pending notices and the mask,
counts the reset, and raises PORT RESET on the port; a reset of the plant port raises PLANT LINK on the survey port. A
break takes one reset, and its end returns the receiver to HUNTING.
Where a frame is still being sent, what the port sends after it is chosen by R184 (the model's choice, log 46). -/
def Obligations.PortReset : Prop :=
  ∀ (s : State) (c : CPort), s.resetAsserted = false →
    (∀ rx, (s.ctl c).rx = .line rx → ∀ x : CtlPort,
      x = { s.ctl c with
        rx := .inBreak, spacing := 16, queue := [], refusals := [], mask := [], pending := [.portReset]
        reply := match (s.ctl c).reply with
          | some r => if r.begun then some { r with ahead := 0 } else none
          | none => none
        resets := if (s.ctl c).resets < 65535 then (s.ctl c).resets + 1 else (s.ctl c).resets } →
      exec (.portReset c) s = .next (match c with
        | .plant => ((s.setCtl c x).raise .survey .plantLink).transmitBoth
        | .survey => (s.setCtl c x).transmitBoth)) ∧
    ((s.ctl c).rx = .inBreak → exec (.portReset c) s = .next s.transmitBoth ∧
      exec (.breakEnd c) s =
        .next (s.setCtl c { s.ctl c with rx := .line (.hunting false), spacing := 0 }).transmitBoth)

/-! ## Channels (02) -/

/-- R25, R26: CHANNEL CONFIG takes the six fields, the weight and the clip level held to their ranges; the weight in force
follows at once while the front is undefined. The reply is OK, or CLAMPED with the six values taken.
R40: CHANNEL ALARM CLEAR clears each named alarm whose condition is not established, keeps the others, and replies with
the alarms kept and the alarms after; NOTHING if none of the named ones was set (the reply then carries both sets too: the
model's reading, log 14); RANGE for an empty set, a bit that names no alarm or a number above 255. -/
def Obligations.ChannelSettings : Prop :=
  (∀ (s : State) (c : CPort) (tag : Byte) (payload : List Byte), Served s c .channelConfig tag payload →
     (∀ (j : Fin 256) (pol : Polarity) (am : Bool) (cfg : ChanConfig), field payload 0 2 = j.val →
       field payload 3 1 = pol.code → field payload 13 1 = am.toNat →
       cfg = ⟨min 15 (field payload 2 1), pol, max 1 (min 8388607 (field payload 4 3)), field payload 7 3,
         field payload 10 3, am⟩ →
       exec (.channelConfig c) s = .next (State.replied
         ((s.popRequest c).setChan j { s.chan j with
           cfg := cfg
           weightInForce := if s.sched.front = none then cfg.weight else (s.chan j).weightInForce })
         c .channelConfig tag
         (if cfg.weight = field payload 2 1 ∧ cfg.clip = field payload 4 3 then .ok else .clamped)
         (if cfg.weight = field payload 2 1 ∧ cfg.clip = field payload 4 3 then [] else cfg.bytes))) ∧
     (255 < field payload 0 2 ∨ 1 < field payload 3 1 ∨ 1 < field payload 13 1 →
       exec (.channelConfig c) s = .next ((s.popRequest c).replied c .channelConfig tag .range []))) ∧
  (∀ (s : State) (c : CPort) (tag : Byte) (payload : List Byte), Served s c .channelAlarmClear tag payload →
     (∀ (j : Fin 256) (n q p : Bool) (kept after : Alarms), field payload 0 2 = j.val →
       field payload 2 1 = n.toNat + 2 * q.toNat + 4 * p.toNat → (n || q || p) = true →
       kept = ⟨n && (s.chan j).noisyHold.established, q && (s.chan j).quietHold.established, p && (s.chan j).clipActive⟩ →
       after = ⟨(s.chan j).alarms.noisy && (!n || kept.noisy), (s.chan j).alarms.quiet && (!q || kept.quiet),
         (s.chan j).alarms.clipped && (!p || kept.clipped)⟩ →
       exec (.channelAlarmClear c) s = .next (State.replied
         ((s.popRequest c).setChan j { s.chan j with alarms := after }) c .channelAlarmClear tag
         (if (n && (s.chan j).alarms.noisy || q && (s.chan j).alarms.quiet || p && (s.chan j).alarms.clipped) = true
           then .ok else .nothing)
         (alarmByte kept ++ alarmByte after))) ∧
     (255 < field payload 0 2 ∨ field payload 2 1 = 0 ∨ 7 < field payload 2 1 →
       exec (.channelAlarmClear c) s = .next ((s.popRequest c).replied c .channelAlarmClear tag .range [])))

/-- R27: CHANNEL ENABLE of an OFF channel makes it AWAIT, with no record and its holds cleared, its changed flag set,
CHANNEL raised and a CHANNEL entry offered; a channel in another state is answered NOTHING, a number above 255 RANGE.
R28: CHANNEL DISABLE of a channel that is not OFF makes it OFF, its record discarded and its holds cleared, its slots,
configuration and alarms kept, its changed flag set, CHANNEL raised and a CHANNEL entry offered, and reports the change to
a scheduler that is HOLDING; an OFF channel is answered NOTHING, a number above 255 RANGE.
The CHANNEL notice of a move is raised ahead of its journal entry (log 42). -/
def Obligations.ChannelEnableDisable : Prop :=
  (∀ (s : State) (c : CPort) (tag : Byte) (payload : List Byte), Served s c .channelEnable tag payload →
     (∀ j : Fin 256, field payload 0 2 = j.val →
       ((s.chan j).state = .off →
         exec (.channelEnable c) s = .next (State.replied
           ((((s.popRequest c).setChan j { s.chan j with
             state := .await, cond := none, noisyHold := ⟨false, 0⟩, quietHold := ⟨false, 0⟩, changed := true }).raise
             .survey .channel).offer (.channel j .off .await)) c .channelEnable tag .ok [])) ∧
       ((s.chan j).state ≠ .off →
         exec (.channelEnable c) s = .next ((s.popRequest c).replied c .channelEnable tag .nothing []))) ∧
     (255 < field payload 0 2 →
       exec (.channelEnable c) s = .next ((s.popRequest c).replied c .channelEnable tag .range []))) ∧
  (∀ (s : State) (c : CPort) (tag : Byte) (payload : List Byte), Served s c .channelDisable tag payload →
     (∀ (j : Fin 256) (t : State), field payload 0 2 = j.val →
       t = (((s.popRequest c).setChan j { s.chan j with
         state := .off, cond := none, noisyHold := ⟨false, 0⟩, quietHold := ⟨false, 0⟩, changed := true }).raise
         .survey .channel).offer (.channel j (s.chan j).state .off) →
       ((s.chan j).state ≠ .off → s.sched.state ≠ .holding ∨ s.isMember j = false →
         exec (.channelDisable c) s = .next (t.replied c .channelDisable tag .ok [])) ∧
       ((s.chan j).state ≠ .off → s.sched.state = .holding → s.isMember j = true →
         exec (.channelDisable c) s = .next (t.holdingTest.replied c .channelDisable tag .ok [])) ∧
       ((s.chan j).state = .off →
         exec (.channelDisable c) s = .next ((s.popRequest c).replied c .channelDisable tag .nothing []))) ∧
     (255 < field payload 0 2 →
       exec (.channelDisable c) s = .next ((s.popRequest c).replied c .channelDisable tag .range [])))

/-! ## Field ports and hubs (03) -/

/-- R52: PORT ENABLE of a DISABLED or FAILED port brings it UP with empty places, the receiver hunting and the link timer
at 0, and makes the expectations of the hubs of valid entries on it undefined; UP and DOWN are answered NOTHING, a port
above 3 RANGE. That it also withdraws a request for a slip of the port is the model's reading (log 28), no sentence of the
rule.
R53: PORT DISABLE of a port that is not DISABLED disables it: reception abandoned, the link timer stopped, the waiting
frame discarded, a frame that waits for a slip discarded and its request withdrawn; DISABLED is answered NOTHING, a port
above 3 RANGE. -/
def Obligations.PortEnableDisable : Prop :=
  (∀ (s : State) (c : CPort) (tag : Byte) (payload : List Byte), Served s c .portEnable tag payload →
     (∀ p : FPort, field payload 0 1 = p.val →
       ((s.port p).state = .disabled ∨ (s.port p).state = .failed →
         exec (.portEnable c) s = .next (State.replied
           { (s.popRequest c).setPort p { s.port p with
               state := .up, rx := .hunting false, linkTimer := some 0, handling := none, waiting := none
               slipWait := false } with
             sched := { s.sched with slips := s.sched.slips.filter fun r => r.port != p }
             hubs := vmap (fun e => if e.valid && e.port == p.val then { e with expSeq := none, expAsn := none } else e)
               s.hubs }
           c .portEnable tag .ok [])) ∧
       ((s.port p).state = .up ∨ (s.port p).state = .down →
         exec (.portEnable c) s = .next ((s.popRequest c).replied c .portEnable tag .nothing []))) ∧
     (3 < field payload 0 1 →
       exec (.portEnable c) s = .next ((s.popRequest c).replied c .portEnable tag .range []))) ∧
  (∀ (s : State) (c : CPort) (tag : Byte) (payload : List Byte), Served s c .portDisable tag payload →
     (∀ p : FPort, field payload 0 1 = p.val →
       ((s.port p).state ≠ .disabled →
         exec (.portDisable c) s = .next (State.replied
           { (s.popRequest c).setPort p { s.port p with
               state := .disabled, rx := .hunting false, linkTimer := none, waiting := none, slipWait := false
               handling := if (s.port p).slipWait then none else (s.port p).handling } with
             sched := { s.sched with slips := s.sched.slips.filter fun r => r.port != p } }
           c .portDisable tag .ok [])) ∧
       ((s.port p).state = .disabled →
         exec (.portDisable c) s = .next ((s.popRequest c).replied c .portDisable tag .nothing []))) ∧
     (3 < field payload 0 1 →
       exec (.portDisable c) s = .next ((s.popRequest c).replied c .portDisable tag .range [])))

/-- R55: HUB MAP SET sets an entry with its expectations undefined, unless a field is out of range, the run shares a
channel with that of another valid entry, or the array is RUNNING and a channel of the entry's present run is not OFF.
R56: HUB MAP CLEAR makes a valid entry not valid with its expectations undefined, keeping port, base and count; it
refuses RANGE, NOTHING and STATE in that order. -/
def Obligations.HubMapSetClear : Prop :=
  (∀ (s : State) (c : CPort) (tag : Byte) (payload : List Byte) (port base count : Nat),
     Served s c .hubMapSet tag payload → port = field payload 1 1 → base = field payload 2 2 → count = field payload 4 2 →
     (∀ h : Fin 16, field payload 0 1 = h.val → port < 4 → 1 ≤ count → count ≤ 64 → base + count ≤ 256 →
       ((∀ g : Fin 16, g ≠ h → (s.hub g).valid = true →
           base + count ≤ (s.hub g).base ∨ (s.hub g).base + (s.hub g).count ≤ base) →
         (¬(s.array = .running ∧ (s.hub h).valid = true ∧
           ∃ j : Fin 256, (s.hub h).base ≤ j.val ∧ j.val < (s.hub h).base + (s.hub h).count ∧ (s.chan j).state ≠ .off) →
           exec (.hubMapSet c) s = .next (State.replied
             ((s.popRequest c).setHub h ⟨true, port, base, count, none, none⟩) c .hubMapSet tag .ok [])) ∧
         (s.array = .running → (s.hub h).valid = true →
           (∃ j : Fin 256, (s.hub h).base ≤ j.val ∧ j.val < (s.hub h).base + (s.hub h).count ∧ (s.chan j).state ≠ .off) →
           exec (.hubMapSet c) s = .next ((s.popRequest c).replied c .hubMapSet tag .state []))) ∧
       ((∃ g : Fin 16, g ≠ h ∧ (s.hub g).valid = true ∧
           base < (s.hub g).base + (s.hub g).count ∧ (s.hub g).base < base + count) →
         exec (.hubMapSet c) s = .next ((s.popRequest c).replied c .hubMapSet tag .range []))) ∧
     (15 < field payload 0 1 ∨ 3 < port ∨ 255 < base ∨ count = 0 ∨ 64 < count ∨ 256 < base + count →
       exec (.hubMapSet c) s = .next ((s.popRequest c).replied c .hubMapSet tag .range []))) ∧
  (∀ (s : State) (c : CPort) (tag : Byte) (payload : List Byte), Served s c .hubMapClear tag payload →
     (∀ h : Fin 16, field payload 0 1 = h.val →
       ((s.hub h).valid = true →
         (s.array ≠ .running ∨ ∀ j : Fin 256, (s.hub h).base ≤ j.val → j.val < (s.hub h).base + (s.hub h).count →
           (s.chan j).state = .off) →
         exec (.hubMapClear c) s = .next (State.replied
           ((s.popRequest c).setHub h { s.hub h with valid := false, expSeq := none, expAsn := none })
           c .hubMapClear tag .ok [])) ∧
       ((s.hub h).valid = true → s.array = .running →
         (∃ j : Fin 256, (s.hub h).base ≤ j.val ∧ j.val < (s.hub h).base + (s.hub h).count ∧ (s.chan j).state ≠ .off) →
         exec (.hubMapClear c) s = .next ((s.popRequest c).replied c .hubMapClear tag .state [])) ∧
       ((s.hub h).valid = false →
         exec (.hubMapClear c) s = .next ((s.popRequest c).replied c .hubMapClear tag .nothing []))) ∧
     (15 < field payload 0 1 →
       exec (.hubMapClear c) s = .next ((s.popRequest c).replied c .hubMapClear tag .range [])))

/-- R57, R84, R146, R163: HUB MAP GET, GRID GET, ZONE GET and ALERT STATUS report what they name as it stands and change
nothing; an id or a zone out of range is answered RANGE (how the values of a reply are spelled in bytes: log 15; the
seconds left of a dwell that does not run: log 38).
R41, R23: CHANNEL QUERY reports the channel as it stands and changes nothing; a number above 255 is answered RANGE.
R198, sections 12.1 and 12.3: the bytes of a zone rule, and the codes of the enumerations. -/
def Obligations.RecordsRead : Prop :=
  (∀ (s : State) (c : CPort) (tag : Byte) (payload : List Byte),
     (Served s c .hubMapGet tag payload →
       (∀ h : Fin 16, field payload 0 1 = h.val →
         exec (.hubMapGet c) s = .next ((s.popRequest c).replied c .hubMapGet tag .ok
           (flagByte (s.hub h).valid ++ bytesOf 1 (s.hub h).port ++ bytesOf 2 (s.hub h).base ++
             bytesOf 2 (s.hub h).count ++ presentOf 2 (s.hub h).expSeq ++ sixOf (s.hub h).expAsn))) ∧
       (15 < field payload 0 1 →
         exec (.hubMapGet c) s = .next ((s.popRequest c).replied c .hubMapGet tag .range []))) ∧
     (Served s c .gridGet tag payload →
       exec (.gridGet c) s = .next ((s.popRequest c).replied c .gridGet tag .ok
         (bytesOf 1 s.banks.grid.nx ++ bytesOf 1 s.banks.grid.ny ++ bytesOf 1 s.banks.grid.nz ++
           bytesOf 2 (s.banks.grid.nx * s.banks.grid.ny * s.banks.grid.nz) ++ bytesOfInt 4 s.banks.grid.originX ++
           bytesOfInt 4 s.banks.grid.originY ++ bytesOfInt 4 s.banks.grid.originZ ++ bytesOf 4 s.banks.grid.spacingX ++
           bytesOf 4 s.banks.grid.spacingY ++ bytesOf 4 s.banks.grid.spacingZ))) ∧
     (Served s c .zoneGet tag payload →
       (∀ z : Fin 8, field payload 0 1 = z.val →
         exec (.zoneGet c) s = .next ((s.popRequest c).replied c .zoneGet tag .ok (vget s.zones z).bytes)) ∧
       (field payload 0 1 = 8 →
         exec (.zoneGet c) s = .next ((s.popRequest c).replied c .zoneGet tag .ok
           ([1, 0, 31, 0, 31, 0, 31, 0] ++
             (bytesOf 2 (s.param .amberShut) ++ bytesOf 2 (s.param .redShut)) ++
             (bytesOf 2 (s.param .amberCirc) ++ bytesOf 2 (s.param .redCirc)) ++
             (bytesOf 2 (s.param .amberStim) ++ bytesOf 2 (s.param .redStim))))) ∧
       (8 < field payload 0 1 →
         exec (.zoneGet c) s = .next ((s.popRequest c).replied c .zoneGet tag .range []))) ∧
     (Served s c .alertStatus tag payload →
       exec (.alertStatus c) s = .next ((s.popRequest c).replied c .alertStatus tag .ok
         (bytesOf 1 s.alert.level.code ++ bytesOf 4 s.alert.cause ++ flagByte s.alert.acknowledged ++
           bytesOf 1 s.alert.dwell.code ++
           bytesOf 4 (match s.alert.dwell with
             | .running ms => (ms + 999) / 1000
             | .stopped | .expired => 0) ++
           bytesOf 1 s.alert.injection.code)))) ∧
  (∀ (s : State) (c : CPort) (tag : Byte) (payload : List Byte), Served s c .channelQuery tag payload →
     (∀ (j : Fin 256) (x : Channel), field payload 0 2 = j.val → x = s.chan j →
       exec (.channelQuery c) s = .next ((s.popRequest c).replied c .channelQuery tag .ok
         ((bytesOf 1 x.cfg.weight ++ bytesOf 1 x.cfg.polarity.code ++ bytesOf 3 x.cfg.clip ++ bytesOf 3 x.cfg.noise ++
           bytesOf 3 x.cfg.quiet ++ flagByte x.cfg.autoMute) ++ bytesOf 1 x.weightInForce ++ bytesOf 1 x.state.code ++
           alarmByte x.alarms ++ (flagByte x.noisyHold.established ++ bytesOf 2 x.noisyHold.run) ++
           (flagByte x.quietHold.established ++ bytesOf 2 x.quietHold.run) ++ flagByte x.clipActive ++
           (match x.cond with
             | some r =>
               presentOf 4 r.sta ++ presentOf 4 r.lta ++ bytesOf 1 r.prevC ++ sixOf r.completeThrough ++ sixOf r.oldestHeld
             | none => presentOf 4 none ++ presentOf 4 none ++ bytesOf 1 0 ++ sixOf none ++ sixOf none)))) ∧
     (255 < field payload 0 2 →
       exec (.channelQuery c) s = .next ((s.popRequest c).replied c .channelQuery tag .range []))) ∧
  (∀ z : ZoneRule, z.bytes =
     flagByte z.enabled ++ bytesOf 1 z.ix0 ++ bytesOf 1 z.ix1 ++ bytesOf 1 z.iy0 ++ bytesOf 1 z.iy1 ++ bytesOf 1 z.iz0 ++
       bytesOf 1 z.iz1 ++ flagByte z.suppress ++ (bytesOf 2 z.shutIn.amber ++ bytesOf 2 z.shutIn.red) ++
       (bytesOf 2 z.circulating.amber ++ bytesOf 2 z.circulating.red) ++
       (bytesOf 2 z.stimulating.amber ++ bytesOf 2 z.stimulating.red)) ∧
  ([ArrayState.initializing, .stopped, .running].map ArrayState.code = [0, 1, 2] ∧
   [PortState.disabled, .up, .down, .failed].map PortState.code = [0, 1, 2, 3] ∧
   [ChanState.off, .await, .settling, .live, .muted, .lagging, .lost].map ChanState.code = [0, 1, 2, 3, 4, 5, 6] ∧
   [Polarity.positive, .negative].map Polarity.code = [0, 1] ∧
   [TrigState.idle, .armed, .opened].map TrigState.code = [0, 1, 2] ∧
   [AlertLevel.green, .amber, .red].map AlertLevel.code = [0, 1, 2] ∧
   [EventLevel.none, .amber, .red].map EventLevel.code = [0, 1, 2] ∧
   [Injection.shutIn, .circulating, .stimulating].map Injection.code = [0, 1, 2] ∧
   [Dwell.stopped, .running 1, .expired].map Dwell.code = [0, 1, 2] ∧
   [StandbyState.empty, .loading, .checking, .pending].map StandbyState.code = [0, 1, 2, 3] ∧
   [Phase.none, .checking, .pending].map Phase.code = [0, 2, 3] ∧
   [Severity.fatal, .nonfatal, .advisory].map Severity.code = [0, 1, 2] ∧
   [Motion.up, .down].map Motion.code = [0, 1] ∧ [RunKind.blind, .stall].map RunKind.code = [3, 4]) ∧
  (NoticeKind.all = [.start, .portReset, .event, .alert, .channel, .fieldError, .journalHeld, .bankDone, .plantLink,
      .injection] ∧
   NoticeKind.all.map NoticeKind.code = [1, 2, 3, 4, 5, 6, 7, 8, 9, 10] ∧
   ErrKind.all = [.frameCheck, .frameForm, .receiveOverflow, .hubUnknown, .shape, .sequence, .timeBehind, .timeJump,
      .linkDown, .slip] ∧
   ErrKind.all.map (fun k => k.place.val) = [0, 1, 2, 3, 4, 5, 6, 7, 8, 9] ∧
   [Status.ok, .clamped, .accepted, .busy, .state, .range, .permission, .notReady, .unknown, .form, .stale, .tooLate,
      .nothing].map Status.code = [0, 1, 2, 3, 5, 6, 7, 8, 9, 10, 11, 12, 13] ∧
   ∀ noisy quiet clipped : Bool,
     alarmByte ⟨noisy, quiet, clipped⟩ = bytesOf 1 (noisy.toNat + 2 * quiet.toNat + 4 * clipped.toNat))

/-- R46, R47: a sync pair on a hunting field port that is UP or DOWN is a frame start: the port is UP, its link timer
restarts from 0 and it receives. In DISABLED and FAILED the bytes of the line are ignored.
R46, R70: a length of 0 or above 8192 ends the frame at once with FRAME_FORM logged, its header log holding the length
alone; the receiver hunts again in the bytes after the frame's 0xB6, unless FRAME_FORM is FATAL and the port fails. (The two
bytes not themselves a sync pair.) -/
def Obligations.FieldFraming : Prop :=
  (∀ (s : State) (p : FPort), s.resetAsserted = false →
     ((s.port p).state = .up ∨ (s.port p).state = .down → (s.port p).rx = .hunting false →
       exec (.frameStart p) s = .next
         (s.setPort p { s.port p with state := .up, linkTimer := some 0, rx := .receiving [] }).transmitBoth) ∧
     ((s.port p).state = .disabled ∨ (s.port p).state = .failed → ∀ (bytes : List Byte) (len : BitVec 16),
       exec (.frameStart p) s = .next s.transmitBoth ∧
       exec (.fieldFrameComplete p bytes) s = .next s.transmitBoth ∧
       exec (.fieldLengthRefused p len) s = .next s.transmitBoth)) ∧
  (∀ (s : State) (p : FPort) (len : BitVec 16), s.resetAsserted = false →
     (s.port p).state = .up ∨ (s.port p).state = .down → (s.port p).rx = .receiving [] →
     len.toNat = 0 ∨ 8192 < len.toNat → len ≠ 0xB649#16 → ((s.port p).log.kind .frameForm).severity ≠ .fatal →
     ∃ t : State, t = s.logError p .frameForm ⟨some len.toNat, none, none, none, none, none, none⟩ ∧
       exec (.fieldLengthRefused p len) s =
         .next (t.setPort p { t.port p with rx := .hunting (len.toNat % 256 == 0xB6) }).transmitBoth) ∧
  (∀ (s : State) (p : FPort) (len : BitVec 16), s.resetAsserted = false →
     (s.port p).state = .up ∨ (s.port p).state = .down → (s.port p).rx = .receiving [] →
     len.toNat = 0 ∨ 8192 < len.toNat → len ≠ 0xB649#16 → ((s.port p).log.kind .frameForm).severity = .fatal →
     ∃ t : State, t = s.logError p .frameForm ⟨some len.toNat, none, none, none, none, none, none⟩ ∧
       exec (.fieldLengthRefused p len) s = .next t.transmitBoth ∧ (t.port p).state = .failed)

/-- R49, R50, R59, R63: a good SAMPLES frame received in RUNNING by a port with empty places, decoded to a hub whose
channels are all OFF, in sequence and contiguous: the hub's expectations move on, and nothing else changes (but the
model's own order tape, a free value, log 4).
R49, R66: in STOPPED a good frame is checked and nothing more: with a form that fails FRAME_FORM is logged, on an unknown
hub HUB_UNKNOWN, on another channel count SHAPE, and a packet that passes leaves no trace; the form is checked field by field.
R46, R48: what each thing does that the receiver finds on a line. A good frame on a port that handles another waits, or is
discarded with RECEIVE_OVERFLOW logged where one waits already; a frame whose CRC fails is discarded with FRAME_CHECK logged,
and its bytes are searched again from the one after its 0xB6. A port that fails meanwhile takes nothing more.
R58, R59, R62: in RUNNING a packet is checked for its sequence, classed, and dropped or taken.
R3, R37, R59, R61: a packet taken first or over a jump restarts the conditioned channels of its run ahead of the write limit
check, and then the scheduler tests (log 10); any other restarts none.
R64, R65, R118: below the write limit a packet is delivered, at it once a slip is taken, or waits for the window in flight.
That the delivery follows the due test of the slip (log 11), and that a packet whose port failed in the same handling goes on
(log 28), is the model's reading.
R60, R62, R63: a delivery gives each channel its samples in ASN order, filled ones below the packet's first, trimmed below
the expected ASN, the channels in any order (log 4).
R29, R36, R63: what a channel does with a sample is decided by its state.
R3, R18: a restart, its CHANNEL notice raised ahead of its entry (log 42); a completed tick goes to the supervisor, the
rejoin test and the scheduler, in any order (log 4). -/
def Obligations.FramesHandled : Prop :=
  (∀ (s : State) (p : FPort) (g : Fin 16) (body : List Byte) (h : SamplesHeader), s.resetAsserted = false →
     (s.port p).state = .up ∨ (s.port p).state = .down → (s.port p).rx = .receiving [] → (s.port p).handling = none →
     (s.port p).waiting = none → s.array = .running → samplesHeader? body = some h → h.hubId = g.val →
     (s.hub g).valid = true → (s.hub g).port = p.val → (s.hub g).count = h.channels →
     (s.hub g).expSeq = some h.sequence → (s.hub g).expAsn = some h.asn → (∀ j, (s.chan j).state = .off) →
     ∃ o : List Nat, exec (.fieldFrameComplete p ((linkFrame body).drop 2)) s = .next (State.transmitBoth
       { (s.setHub g { s.hub g with
           expSeq := some ((h.sequence + 1) % 65536), expAsn := some (h.asn + h.samples) }).setPort p
         { s.port p with rx := .hunting false } with order := o })) ∧
  (∀ (s : State) (p : FPort) (body : List Byte), s.array ≠ .running → (s.port p).handling = some ⟨body, none⟩ →
     (samplesHeader? body = none → s.handleFrame p = (s.logError p .frameForm (headerOfBody body)).endHandling p) ∧
     (∀ h, samplesHeader? body = some h →
       ((15 < h.hubId ∨ ∃ g : Fin 16, h.hubId = g.val ∧ ((s.hub g).valid = false ∨ (s.hub g).port ≠ p.val)) →
         s.handleFrame p = (s.logError p .hubUnknown (headerOfBody body)).endHandling p) ∧
       (∀ g : Fin 16, h.hubId = g.val → (s.hub g).valid = true → (s.hub g).port = p.val →
         ((s.hub g).count ≠ h.channels →
           s.handleFrame p = (s.logError p .shape (headerOfBody body)).endHandling p) ∧
         ((s.hub g).count = h.channels → s.handleFrame p = s.endHandling p)))) ∧
  (∀ (s : State) (p : FPort),
     ((s.port p).state = .disabled ∨ (s.port p).state = .failed → ∀ e, s.rxEvent p e = s) ∧
     ((s.port p).state = .up ∨ (s.port p).state = .down → ∀ (body : List Byte) (len : Nat),
       s.rxEvent p .start = s.setPort p { s.port p with state := .up, linkTimer := some 0 } ∧
       s.rxEvent p (.badLength len) = s.logError p .frameForm ⟨some len, none, none, none, none, none, none⟩ ∧
       s.rxEvent p (.badCrc len body) = s.logError p .frameCheck (headerOf len body) ∧
       ((s.port p).handling = none → s.rxEvent p (.good body) =
         ((s.setPort p { s.port p with handling := some ⟨body, none⟩ }).handleFrame p).promote p) ∧
       (∀ h, (s.port p).handling = some h →
         ((s.port p).waiting = none → s.rxEvent p (.good body) = s.setPort p { s.port p with waiting := some body }) ∧
         ((s.port p).waiting ≠ none →
           s.rxEvent p (.good body) = s.logError p .receiveOverflow (headerOfBody body))))) ∧
  (∀ (s : State) (p : FPort) (bytes : List Byte) (evs : List RxEvent) (rx : Receiver) (t : State),
     s.resetAsserted = false → (s.port p).state = .up ∨ (s.port p).state = .down →
     (feed 8192 (s.port p).rx bytes = (evs, rx) ∨
       ∃ got buf len r, (s.port p).rx = .receiving got ∧ buf = got ++ bytes ∧ len = field buf 0 2 ∧ 1 ≤ len ∧
         len ≤ 8192 ∧ len + 4 ≤ buf.length ∧ crc (buf.take (len + 2)) ≠ BitVec.ofNat 16 (field buf (len + 2) 2) ∧
         r = feed 8192 (.hunting false) (0x49 :: buf) ∧ evs = .badCrc len ((buf.drop 2).take len) :: r.1 ∧ rx = r.2) →
     t = evs.foldl (fun t e => t.rxEvent p e) s →
     exec (.fieldFrameComplete p bytes) s = .next (State.transmitBoth
       (if (t.port p).state = .up ∨ (t.port p).state = .down then t.setPort p { t.port p with rx := rx } else t))) ∧
  (∀ (body : List Byte) (h : SamplesHeader), samplesHeader? body = some h ↔
     field body 0 1 = 1 ∧ 16 ≤ body.length ∧ (1 ≤ h.samples ∧ h.samples ≤ 32) ∧ (1 ≤ h.channels ∧ h.channels ≤ 64) ∧
       body.length = 16 + 3 * h.samples * h.channels ∧
       h = ⟨field body 1 1, field body 3 2, field body 5 6, field body 11 1, field body 12 1⟩) ∧
  (∀ (s : State) (p : FPort) (pk : Packet),
     s.endHandling p = s.setPort p { s.port p with handling := none } ∧
     pk.run.Nodup ∧ ∀ j : Fin 256, j ∈ pk.run ↔ pk.base ≤ j.val ∧ j.val < pk.base + pk.count) ∧
  (∀ (s : State) (p : FPort) (g : Fin 16) (body : List Byte) (h : SamplesHeader) (cls : PacketClass) (t u : State),
     s.array = .running → (s.port p).handling = some ⟨body, none⟩ → samplesHeader? body = some h → h.hubId = g.val →
     (s.hub g).valid = true → (s.hub g).port = p.val → (s.hub g).count = h.channels →
     cls = classOf (s.hub g).expAsn (s.param .gapFill) h.asn →
     t = (match (s.hub g).expSeq with
       | some q => if h.sequence = q then s else s.logError p .sequence (headerOfBody body)
       | none => s) →
     u = (match cls with
       | .jump => t.logError p .timeJump (headerOfBody body)
       | .overlap _ => t.logError p .timeBehind (headerOfBody body)
       | .first | .contiguous | .gap _ => t) →
     (cls.dropped h.asn h.samples = true → s.handleFrame p = u.setPort p { u.port p with handling := none }) ∧
     (cls.dropped h.asn h.samples = false → ∀ pk : Packet,
       pk = ⟨(s.hub g).base, (s.hub g).count, h.asn, h.samples, cls⟩ →
       s.handleFrame p = ((((u.setHub g { s.hub g with
         expSeq := some ((h.sequence + 1) % 65536), expAsn := some (h.asn + h.samples) }).setPort p
         { u.port p with handling := some ⟨body, some pk⟩ }).restartRun pk).limitThenDeliver p pk))) ∧
  (∀ (s : State) (pk : Packet),
     ((pk.cls = .contiguous ∨ (∃ e, pk.cls = .gap e) ∨ ∃ e, pk.cls = .overlap e) → s.restartRun pk = s) ∧
     (pk.cls = .first ∨ pk.cls = .jump → ∃ (run : List (Fin 256)) (o : List Nat) (t : State), run.Perm pk.run ∧
       t = run.foldl (fun t j =>
         if (t.chan j).state = .settling ∨ (t.chan j).state = .live ∨ (t.chan j).state = .lagging ∨
             (t.chan j).state = .muted then
           ((t.setChan j { t.chan j with
             state := .settling, noisyHold := ⟨false, 0⟩, quietHold := ⟨false, 0⟩, changed := true
             cond := some ⟨none, none, none, none, 0, pk.asn / 4, 2 ^ t.param .kl, none, none⟩ }).raise
             .survey .channel).offer (.channel j (t.chan j).state .settling)
         else t) { s with order := o } ∧
       ((∀ j ∈ pk.run, t.isMember j = s.isMember j) → s.restartRun pk = t) ∧
       ((∃ j ∈ pk.run, t.isMember j ≠ s.isMember j) → s.restartRun pk = t.holdingTest))) ∧
  (∀ (s : State) (p : FPort) (pk : Packet) (l : Nat), l = (pk.asn + pk.samples - 1) / 4 →
     (s.sched.front = none ∨ (∀ j ∈ pk.run, (s.chan j).state = .off) ∨
         (∃ f, s.sched.front = some f ∧ l < 16 * f + 696) →
       s.limitThenDeliver p pk = s.deliverHandled p) ∧
     (∀ f, s.sched.front = some f → (∃ j ∈ pk.run, (s.chan j).state ≠ .off) → 16 * f + 696 ≤ l →
       (s.sched.state = .stacking → s.limitThenDeliver p pk =
         { s.setPort p { s.port p with slipWait := true } with
           sched := { s.sched with slips := s.sched.slips ++ [⟨p, l⟩] } }) ∧
       (s.sched.state ≠ .stacking →
         s.limitThenDeliver p pk = ((s.takeSlip ⟨p, l⟩).dueTest).deliverHandled p))) ∧
  (∀ (s : State) (p : FPort) (pk : Packet) (body : List Byte) (first : Nat),
     (s.port p).handling = some ⟨body, some pk⟩ →
     first = (match pk.cls with
       | .gap e | .overlap e => e
       | .first | .contiguous | .jump => pk.asn) → first < pk.asn + pk.samples →
     ∃ (w : List ((Fin 256 × Nat) × List Nat)) (t : State),
       (∀ j : Fin 256, (w.map fun e => e.1).filter (fun e => e.1 == j) =
         if pk.base ≤ j.val ∧ j.val < pk.base + pk.count then
           (List.range (pk.asn + pk.samples - first)).map fun i => (j, first + i)
         else []) ∧
       t = w.foldl (fun t e => ({ t with order := e.2 } : State).sampleIn pk e.1.1 e.1.2
         (if e.1.2 < pk.asn then none
          else some (fieldInt body (16 + 3 * ((e.1.2 - pk.asn) * pk.count + (e.1.1.val - pk.base))) 3))) s ∧
       s.deliverHandled p = t.setPort p { t.port p with handling := none }) ∧
  (∀ (s : State) (pk : Packet) (j : Fin 256) (asn : Nat) (x : Option Int),
     ((s.chan j).state = .off → s.sampleIn pk j asn x = s) ∧
     ((s.chan j).state = .await ∨ (s.chan j).state = .lost → x = none → s.sampleIn pk j asn x = s) ∧
     ((s.chan j).state = .await → x ≠ none → s.sampleIn pk j asn x = (s.restartAt j asn).condition j asn x) ∧
     ((s.chan j).state = .lost → x ≠ none → ∀ f, s.sched.front = some f →
       (asn = max pk.start pk.asn → 64 * f ≤ asn →
         s.sampleIn pk j asn x = (s.restartAt j asn).condition j asn x) ∧
       (asn ≠ max pk.start pk.asn ∨ asn < 64 * f → s.sampleIn pk j asn x = s)) ∧
     ((s.chan j).state = .settling ∨ (s.chan j).state = .live ∨ (s.chan j).state = .lagging ∨
       (s.chan j).state = .muted → s.sampleIn pk j asn x = s.condition j asn x) ∧
     (∀ r, (s.chan j).cond = some r →
       (asn % 4 ≠ 3 → s.condition j asn x = s.setChan j ((s.chan j).takeSample s.params r asn x).1) ∧
       (∀ rep, ((s.chan j).takeSample s.params r asn x).2 = some rep →
         s.condition j asn x = (s.setChan j ((s.chan j).takeSample s.params r asn x).1).report j rep))) ∧
  (∀ (s : State) (j : Fin 256) (asn : Nat) (t : State),
     t = ((s.setChan j { s.chan j with
       state := .settling, noisyHold := ⟨false, 0⟩, quietHold := ⟨false, 0⟩, changed := true
       cond := some ⟨none, none, none, none, 0, asn / 4, 2 ^ s.param .kl, none, none⟩ }).raise
       .survey .channel).offer (.channel j (s.chan j).state .settling) →
     s.restartAt j asn = if t.isMember j = s.isMember j then t else t.holdingTest) ∧
  (∀ (s : State) (j : Fin 256) (rep : TickReport),
     ∃ (l : List Receives) (o : List Nat), l.Perm [.supervisor, .rejoin, .scheduler] ∧
       s.report j rep = l.foldl (fun t who => match who with
         | .supervisor =>
           if (t.supervise j rep).isMember j = t.isMember j then t.supervise j rep else (t.supervise j rep).holdingTest
         | .rejoin => t.rejoinTest j
         | .scheduler => t.scheduleReport j rep.tick) { s with order := o })

/-- R47: the link timer of an UP port reaching 200 ms takes the port DOWN with its reception abandoned and LINK_DOWN
logged with every header field absent; frames in the places are kept, and a receiver that hunts goes on hunting where it is
(that the timer then stands still: log 20). A port that is not UP is not touched: no sentence of the rule, the model's choice
(log 2). -/
def Obligations.LinkDown : Prop :=
  ∀ (s : State) (p : FPort), s.resetAsserted = false →
    ((s.port p).state = .up →
      exec (.linkDown p) s = .next (State.transmitBoth
        ((s.setPort p { s.port p with
            state := .down, linkTimer := none
            rx := match (s.port p).rx with
              | .receiving _ => .hunting false
              | .hunting seen => .hunting seen }).logError p .linkDown
          ⟨none, none, none, none, none, none, none⟩))) ∧
    ((s.port p).state ≠ .up → exec (.linkDown p) s = .next s.transmitBoth)

/-- R59, R62: the class of a packet by its hub's expected ASN and the gap fill limit, each case with its condition, and an
overlap dropped when nothing of it remains.
R119: the target of a slip is the smallest window number whose write limit lies above the packet's last tick. -/
def Obligations.PacketClasses : Prop :=
  (∀ (g asn samples e : Nat),
     classOf none g asn = .first ∧
     (asn = e → classOf (some e) g asn = .contiguous) ∧
     (e < asn → asn ≤ e + g → classOf (some e) g asn = .gap e) ∧
     (e + g < asn → classOf (some e) g asn = .jump) ∧
     (asn < e → classOf (some e) g asn = .overlap e) ∧
     ((classOf (some e) g asn).dropped asn samples = true ↔ asn < e ∧ asn + samples ≤ e)) ∧
  (∀ l : Nat, l < 16 * slipTarget l + 696 ∧ ∀ f, l < 16 * f + 696 → slipTarget l ≤ f)

/-! ## Field error log (04) -/

/-- R70, R71, R73, R74, R77, R78: an occurrence sets the kind's flag and counts it, saturating; an unmasked uncorrectable one
fills an empty first-error record and header log; the other kinds and the settings stay. It raises FIELD ERROR if the kind
is unmasked and its flag was clear.
R51, R65: then a FATAL kind fails the port: reception abandoned, the link timer stopped, the waiting frame discarded, a
frame that waits for a slip discarded and its request withdrawn. Nothing else changes.
R75: the header log of a frame holds the stated length and each field of which the frame carried every byte. -/
def Obligations.ErrorOccurrence : Prop :=
  (∀ (l : ErrorLog) (k : ErrKind) (h : HeaderLog),
    (l.occur k h).kind k = { l.kind k with
      flag := true, count := if (l.kind k).count < 65535 then (l.kind k).count + 1 else (l.kind k).count } ∧
    (∀ k', k' ≠ k → (l.occur k h).kind k' = l.kind k') ∧
    ((l.kind k).masked = false → (l.kind k).severity ≠ .advisory → l.first = none →
      (l.occur k h).first = some k ∧ (l.occur k h).header = some h) ∧
    ((l.kind k).masked = true ∨ (l.kind k).severity = .advisory ∨ l.first ≠ none →
      (l.occur k h).first = l.first ∧ (l.occur k h).header = l.header)) ∧
  (∀ (s : State) (p : FPort) (k : ErrKind) (h : HeaderLog) (r : KindRec) (t u : State), r = (s.port p).log.kind k →
    t = s.setPort p { s.port p with log := (s.port p).log.occur k h } →
    u = (if r.masked = false ∧ r.flag = false then t.raise .survey .fieldError else t) →
    (r.severity ≠ .fatal → s.logError p k h = u) ∧
    (r.severity = .fatal → s.logError p k h =
      { u.setPort p { s.port p with
          state := .failed, rx := .hunting false, linkTimer := none, waiting := none, slipWait := false
          handling := if (s.port p).slipWait then none else (s.port p).handling
          log := (s.port p).log.occur k h } with
        sched := { s.sched with slips := s.sched.slips.filter fun r => r.port != p } })) ∧
  (∀ (body : List Byte) (len : Nat) (f : Nat → Nat → Option Nat),
    f = (fun off n => if off + n ≤ body.length then some (field body off n) else none) →
    headerOf len body = ⟨some len, f 0 1, f 1 1, f 3 2, f 5 6, f 11 1, f 12 1⟩ ∧
    headerOfBody body = headerOf body.length body)

/-- R79, R80, R81: ERROR REPORT returns a port's log and changes nothing; ERROR CONFIG sets the severity and the mask of
the named kinds and of no other, KEEP leaving a setting; ERROR CLEAR clears the count and the flag of the named kinds but
the flag of an active LINK_DOWN condition, and the first-error record with the header log if asked (the spelling of the
replies: log 15, of the two summaries: log 41, of the flags after ERROR CLEAR: log 33; that a NOTHING reply to ERROR CLEAR
carries its values too: log 14).
R72: the summaries are those of the unmasked kinds whose flag is set.
R198: a set of kinds has a bit for each kind, and the actions their codes. -/
def Obligations.ErrorLogRequests : Prop :=
  (∀ (s : State) (c : CPort) (tag : Byte) (payload : List Byte) (p : FPort), field payload 0 1 = p.val →
     (Served s c .errorReport tag payload →
       exec (.errorReport c) s = .next ((s.popRequest c).replied c .errorReport tag .ok
         ((ErrKind.all.flatMap fun k =>
             flagByte ((s.port p).log.kind k).flag ++ bytesOf 2 ((s.port p).log.kind k).count ++
               bytesOf 1 (if ((s.port p).log.kind k).masked then 0 else 1) ++
               bytesOf 1 ((s.port p).log.kind k).severity.code) ++
           flagByte ((s.port p).state == .down) ++ bytesOf 1 (s.port p).state.code ++
           bytesOf 1 ((ErrKind.all.any fun k => ((s.port p).log.kind k).flag && !((s.port p).log.kind k).masked &&
               ((s.port p).log.kind k).severity != .advisory).toNat +
             2 * (ErrKind.all.any fun k => ((s.port p).log.kind k).flag && !((s.port p).log.kind k).masked &&
               ((s.port p).log.kind k).severity == .advisory).toNat) ++
           (match (s.port p).log.first with
             | some k => bytesOf 1 k.place.val
             | none => [0xFF]) ++
           (match (s.port p).log.header with
             | some h => presentOf 2 h.length ++ presentOf 1 h.cls ++ presentOf 1 h.hubId ++ presentOf 2 h.sequence ++
               presentOf 6 h.firstAsn ++ presentOf 1 h.samples ++ presentOf 1 h.channels
             | none => presentOf 2 none ++ presentOf 1 none ++ presentOf 1 none ++ presentOf 2 none ++
               presentOf 6 none ++ presentOf 1 none ++ presentOf 1 none)))) ∧
     (Served s c .errorConfig tag payload → ∀ ks sev mask, errorSet? (field payload 1 2) = some ks → ks ≠ [] →
       severityAction? (field payload 3 1) = some sev → maskAction? (field payload 4 1) = some mask →
       ∃ l : ErrorLog, exec (.errorConfig c) s =
         .next (State.replied ((s.popRequest c).setPort p { s.port p with log := l }) c .errorConfig tag .ok
           (ErrKind.all.flatMap fun k =>
             bytesOf 1 (l.kind k).severity.code ++ bytesOf 1 (if (l.kind k).masked then 0 else 1))) ∧
         (∀ k, l.kind k = if k ∈ ks then
           { (s.port p).log.kind k with
             severity := sev.getD ((s.port p).log.kind k).severity, masked := mask.getD ((s.port p).log.kind k).masked }
           else (s.port p).log.kind k) ∧
         l.first = (s.port p).log.first ∧ l.header = (s.port p).log.header) ∧
     (Served s c .errorClear tag payload → ∀ (ks : List ErrKind) (first : Bool), errorSet? (field payload 1 2) = some ks →
       ks ≠ [] → field payload 3 1 = first.toNat →
       ∃ l : ErrorLog, exec (.errorClear c) s =
         .next (State.replied ((s.popRequest c).setPort p { s.port p with log := l }) c .errorClear tag
           (if (∀ k ∈ ks, ((s.port p).log.kind k).flag = false ∧ ((s.port p).log.kind k).count = 0) ∧
             (first = false ∨ (s.port p).log.first = none) then .nothing else .ok)
           (errorSetOf (ks.filter fun k => k == .linkDown && (s.port p).state == .down) ++
             errorSetOf (ErrKind.all.filter fun k => (l.kind k).flag))) ∧
         (∀ k, l.kind k = if k ∈ ks then
           { (s.port p).log.kind k with
             count := 0, flag := ((s.port p).log.kind k).flag && (k == .linkDown && (s.port p).state == .down) }
           else (s.port p).log.kind k) ∧
         l.first = (if first then none else (s.port p).log.first) ∧
         l.header = (if first then none else (s.port p).log.header))) ∧
  (∀ (v : Nat) (ks : List ErrKind),
    (errorSet? v = some ks ↔ v < 1024 ∧ ks = ErrKind.all.filter fun k => v.testBit k.place.val) ∧
    ∃ u, errorSetOf ks = bytesOf 2 u ∧ u < 1024 ∧ ∀ k : ErrKind, u.testBit k.place.val = true ↔ k ∈ ks) ∧
  ((severityAction? 0, severityAction? 1, severityAction? 2, severityAction? 3) =
      (some (some .fatal), some (some .nonfatal), some (some .advisory), some none) ∧
    (maskAction? 0, maskAction? 1, maskAction? 2) = (some (some true), some (some false), some none))

/-- R79, R80, R81: ERROR REPORT, ERROR CONFIG and ERROR CLEAR refuse RANGE a port above 3; the last two an empty set, a bit
that names no kind, and a code that is no value; nothing is changed then (for the clear-first-error byte of ERROR CLEAR
this is the model's reading, log 34). -/
def Obligations.ErrorLogRangeRefusals : Prop :=
  ∀ (s : State) (c : CPort) (tag : Byte) (payload : List Byte),
    (Served s c .errorReport tag payload → 3 < field payload 0 1 →
      exec (.errorReport c) s = .next ((s.popRequest c).replied c .errorReport tag .range [])) ∧
    (Served s c .errorConfig tag payload → 3 < field payload 0 1 ∨ field payload 1 2 = 0 ∨ 1023 < field payload 1 2 ∨
        3 < field payload 3 1 ∨ 2 < field payload 4 1 →
      exec (.errorConfig c) s = .next ((s.popRequest c).replied c .errorConfig tag .range [])) ∧
    (Served s c .errorClear tag payload → 3 < field payload 0 1 ∨ field payload 1 2 = 0 ∨ 1023 < field payload 1 2 ∨
        1 < field payload 3 1 →
      exec (.errorClear c) s = .next ((s.popRequest c).replied c .errorClear tag .range []))

/-! ## Banks and grid (05) -/

/-- R83: GRID SET in range, out of RUNNING with no activation in flight, sets the grid and empties both banks, keeping the
serial counter; it refuses STATE, BUSY and RANGE in that order. -/
def Obligations.GridSet : Prop :=
  ∀ (s : State) (c : CPort) (tag : Byte) (payload : List Byte) (nx ny nz : Nat), Served s c .gridSet tag payload →
    nx = field payload 0 1 → ny = field payload 1 1 → nz = field payload 2 1 →
    (s.array ≠ .running → s.banks.phase = .none →
      1 ≤ nx → nx ≤ 32 → 1 ≤ ny → ny ≤ 32 → 1 ≤ nz → nz ≤ 32 → nx * ny * nz ≤ 4096 →
      exec (.gridSet c) s = .next (State.replied
        { s.popRequest c with
          banks :=
            { grid := ⟨nx, ny, nz, fieldInt payload 3 4, fieldInt payload 7 4, fieldInt payload 11 4,
                field payload 15 4, field payload 19 4, field payload 23 4⟩
              active := [], standby := [], hasActive := false, standbyState := .empty, activeSerial := 0, dMax := 0
              validated := 0, outcome := .empty, serialCounter := s.banks.serialCounter } }
        c .gridSet tag .ok [])) ∧
    (s.array = .running → exec (.gridSet c) s = .next ((s.popRequest c).replied c .gridSet tag .state [])) ∧
    (s.array ≠ .running → s.banks.phase ≠ .none →
      exec (.gridSet c) s = .next ((s.popRequest c).replied c .gridSet tag .busy [])) ∧
    (s.array ≠ .running → s.banks.phase = .none →
      nx = 0 ∨ 32 < nx ∨ ny = 0 ∨ 32 < ny ∨ nz = 0 ∨ 32 < nz ∨ 4096 < nx * ny * nz →
      exec (.gridSet c) s = .next ((s.popRequest c).replied c .gridSet tag .range []))

/-- R87: BANK WRITE in range with no activation in flight writes the delays into the standby bank, entry by entry, and no
other entry; an EMPTY standby bank becomes LOADING, and nothing else of the controller changes. -/
def Obligations.BankWrite : Prop :=
  ∀ (s : State) (c : CPort) (tag : Byte) (payload : List Byte) (v start n : Nat), Served s c .bankWrite tag payload →
    v = field payload 0 2 → start = field payload 2 2 → n = field payload 4 2 →
    (v < s.banks.grid.voxels → start ≤ 255 → 1 ≤ n → start + n ≤ 256 → s.banks.phase = .none →
      ∃ b : Bank, exec (.bankWrite c) s = .next (State.replied
          { s.popRequest c with
            banks := { s.banks with
              standby := b
              standbyState := if s.banks.standbyState = .empty then .loading else s.banks.standbyState } }
          c .bankWrite tag .ok []) ∧
        (∀ i, i < n → b.delay? v (start + i) = (slice payload 6 n)[i]?) ∧
        (∀ v' j, j < 256 → (v' ≠ v ∨ j < start ∨ start + n ≤ j) → b.delay? v' j = s.banks.standby.delay? v' j)) ∧
    (s.banks.grid.voxels ≤ v ∨ 255 < start ∨ n = 0 ∨ 256 < start + n →
      exec (.bankWrite c) s = .next ((s.popRequest c).replied c .bankWrite tag .range [])) ∧
    (v < s.banks.grid.voxels → start ≤ 255 → 1 ≤ n → start + n ≤ 256 → s.banks.phase ≠ .none →
      exec (.bankWrite c) s = .next ((s.popRequest c).replied c .bankWrite tag .busy []))

/-- R88: BANK READ returns the written flag and the delay of each entry asked for and the state of the bank, changing
nothing; STATE without an active bank, RANGE out of range. The code of the state ACTIVE is a free value (log 16), and so is
the order of STATE and RANGE where both hold (log 24). A read of 256 channels carries its 513 bytes (log 36).
R85: the place of an entry in a bank, and the delay 0 of an unwritten one. -/
def Obligations.BankRead : Prop :=
  (∀ (s : State) (c : CPort) (tag : Byte) (payload : List Byte) (v start n : Nat), Served s c .bankRead tag payload →
     v = field payload 1 2 → start = field payload 3 2 → n = field payload 5 2 →
     (v < s.banks.grid.voxels → start ≤ 255 → 1 ≤ n → start + n ≤ 256 →
       (field payload 0 1 = 0 → s.banks.hasActive = true →
         exec (.bankRead c) s = .next ((s.popRequest c).replied c .bankRead tag .ok
           (((List.range n).flatMap fun i => flagByte (s.banks.active.delay? v (start + i)).isSome ++
             bytesOf 1 (s.banks.active.delay v (start + i))) ++ [Config.activeBankStateCode]))) ∧
       (field payload 0 1 = 0 → s.banks.hasActive = false →
         exec (.bankRead c) s = .next ((s.popRequest c).replied c .bankRead tag .state [])) ∧
       (field payload 0 1 = 1 →
         exec (.bankRead c) s = .next ((s.popRequest c).replied c .bankRead tag .ok
           (((List.range n).flatMap fun i => flagByte (s.banks.standby.delay? v (start + i)).isSome ++
             bytesOf 1 (s.banks.standby.delay v (start + i))) ++ bytesOf 1 s.banks.standbyState.code)))) ∧
     (1 < field payload 0 1 →
       exec (.bankRead c) s = .next ((s.popRequest c).replied c .bankRead tag .range [])) ∧
     (s.banks.grid.voxels ≤ v ∨ 255 < start ∨ n = 0 ∨ 256 < start + n →
       (field payload 0 1 = 1 ∨ s.banks.hasActive = true →
         exec (.bankRead c) s = .next ((s.popRequest c).replied c .bankRead tag .range [])) ∧
       (field payload 0 1 = 0 → s.banks.hasActive = false →
         exec (.bankRead c) s = .next ((s.popRequest c).replied c .bankRead tag .state []) ∨
           exec (.bankRead c) s = .next ((s.popRequest c).replied c .bankRead tag .range [])))) ∧
  (∀ (b : Bank) (v j : Nat), b.delay? v j = Store.read b (256 * v + j) ∧
     b.delay v j = ((Store.read b (256 * v + j)).map fun d => d.toNat).getD 0)

/-- R89, R91, R96: BANK CLEAR empties the standby bank, BANK ACTIVATE begins the validation of one that is not EMPTY, BANK
ABORT ends the activation in flight with the standby bank LOADING and BANK DONE raised; each refuses as its rule says. -/
def Obligations.BankActivation : Prop :=
  ∀ (s : State) (c : CPort) (tag : Byte) (payload : List Byte),
    (Served s c .bankClear tag payload →
      (s.banks.phase ≠ .none → exec (.bankClear c) s = .next ((s.popRequest c).replied c .bankClear tag .busy [])) ∧
      (s.banks.standbyState = .empty →
        exec (.bankClear c) s = .next ((s.popRequest c).replied c .bankClear tag .nothing [])) ∧
      (s.banks.standbyState = .loading →
        exec (.bankClear c) s = .next (State.replied
          { s.popRequest c with banks := { s.banks with standby := [], standbyState := .empty } }
          c .bankClear tag .ok []))) ∧
    (Served s c .bankActivate tag payload →
      (s.banks.phase ≠ .none →
        exec (.bankActivate c) s = .next ((s.popRequest c).replied c .bankActivate tag .busy [])) ∧
      (s.banks.standbyState = .empty →
        exec (.bankActivate c) s = .next ((s.popRequest c).replied c .bankActivate tag .state [])) ∧
      (s.banks.standbyState = .loading →
        exec (.bankActivate c) s = .next (State.replied
          { s.popRequest c with banks := { s.banks with standbyState := .checking } } c .bankActivate tag .accepted []))) ∧
    (Served s c .bankAbort tag payload →
      (s.banks.phase ≠ .none →
        exec (.bankAbort c) s = .next (State.replied
          (({ s.popRequest c with banks := { s.banks with
            standbyState := .loading, outcome := .aborted s.banks.phase } } : State).raise .survey .bankDone)
          c .bankAbort tag .ok [])) ∧
      (s.banks.phase = .none → (∃ serial d, s.banks.outcome = .swapped serial d) →
        exec (.bankAbort c) s = .next ((s.popRequest c).replied c .bankAbort tag .tooLate [])) ∧
      (s.banks.phase = .none → (∀ serial d, s.banks.outcome ≠ .swapped serial d) →
        exec (.bankAbort c) s = .next ((s.popRequest c).replied c .bankAbort tag .nothing [])))

/-- R93: validation that stops at an incomplete voxel: the standby bank LOADING with its entries, the phase NONE, the
outcome INCOMPLETE with the lowest-numbered incomplete voxel, BANK DONE raised, and nothing else changed or journaled. -/
def Obligations.ValidationFailed : Prop :=
  ∀ (s : State) (v : Nat), s.resetAsserted = false → s.banks.standbyState = .checking → v < s.banks.grid.voxels →
    s.banks.standby.written v ≠ 256 → (∀ u, u < v → s.banks.standby.written u = 256) →
    exec .validationFailed s = .next (State.transmitBoth
      (({ s with banks := { s.banks with standbyState := .loading, outcome := .incomplete v } } : State).raise
        .survey .bankDone))

/-- R92, R94, R95: validation that finds every voxel full: in STOPPED the swap is taken at once, with BANK journaled and
BANK DONE raised; in RUNNING with a window being stacked or the trigger not IDLE the bank is PENDING.
R94, R105: in RUNNING with no window in flight and the trigger IDLE the swap is taken at once, and the due test in
COLLECTING or the readiness test in HOLDING follows with the new D_max.
R92: the D_max of a validated bank is the largest delay over the voxels of the grid and all 256 channels.
R85, R92: a voxel's written map is full when every channel's entry of it is written.
BANK is offered before BANK DONE is raised (the model's choice, log 45). -/
def Obligations.ValidationPassed : Prop :=
  (∀ (s : State) (d serial : Nat) (t : State), s.resetAsserted = false → s.banks.standbyState = .checking →
     (∀ v, v < s.banks.grid.voxels → s.banks.standby.written v = 256) →
     d = s.banks.standby.largest s.banks.grid.voxels →
     serial = (if s.banks.serialCounter < 65535 then s.banks.serialCounter + 1 else 1) →
     t = (({ s with banks := { s.banks with
         active := s.banks.standby, standby := s.banks.active, hasActive := true
         standbyState := if s.banks.hasActive then .loading else .empty
         activeSerial := serial, dMax := d, validated := d, outcome := .swapped serial d
         serialCounter := serial } } : State).offer (.bank serial d)).raise .survey .bankDone →
     (s.array = .stopped → s.sched.state = .unset → exec .validationPassed s = .next t.transmitBoth) ∧
     (s.array = .running → s.sched.window = none → s.trig.state = .idle →
       (s.sched.state = .unset → exec .validationPassed s = .next t.transmitBoth) ∧
       (s.sched.state = .collecting → exec .validationPassed s = .next t.dueTest.transmitBoth) ∧
       (s.sched.state = .holding → exec .validationPassed s = .next t.holdingTest.transmitBoth)) ∧
     (s.array = .running → s.sched.window ≠ none ∨ s.trig.state ≠ .idle →
       exec .validationPassed s = .next (State.transmitBoth
         { s with banks := { s.banks with standbyState := .pending, validated := d } }))) ∧
  (∀ (b : Bank) (voxels : Nat), Store.wf b = true →
     (∀ v j d, v < voxels → j < 256 → b.delay? v j = some d → d.toNat ≤ b.largest voxels) ∧
     (b.largest voxels = 0 ∨ ∃ v j d, v < voxels ∧ j < 256 ∧ b.delay? v j = some d ∧ d.toNat = b.largest voxels)) ∧
  (∀ (b : Bank) (v : Nat), Store.wf b = true →
     (b.written v = 256 ↔ ∀ j, j < 256 → b.delay? v j ≠ none))

/-! ## Zones (07) -/

/-- R145: ZONE SET in range sets the rule to the fields given and no other; a rule above 7, a code that is neither value, a
bound or a threshold out of range or out of order is answered RANGE. -/
def Obligations.ZoneSet : Prop :=
  ∀ (s : State) (c : CPort) (tag : Byte) (payload : List Byte) (enabled suppress : Bool) (z : ZoneRule),
    Served s c .zoneSet tag payload →
    z = ⟨enabled, field payload 2 1, field payload 3 1, field payload 4 1, field payload 5 1, field payload 6 1,
      field payload 7 1, suppress, ⟨field payload 9 2, field payload 11 2⟩, ⟨field payload 13 2, field payload 15 2⟩,
      ⟨field payload 17 2, field payload 19 2⟩⟩ →
    (∀ i : Fin 8, field payload 0 1 = i.val → field payload 1 1 = enabled.toNat → field payload 8 1 = suppress.toNat →
      z.ix0 ≤ z.ix1 → z.ix1 ≤ 31 → z.iy0 ≤ z.iy1 → z.iy1 ≤ 31 → z.iz0 ≤ z.iz1 → z.iz1 ≤ 31 →
      z.shutIn.amber ≤ z.shutIn.red → z.shutIn.red ≤ 3825 → z.circulating.amber ≤ z.circulating.red →
      z.circulating.red ≤ 3825 → z.stimulating.amber ≤ z.stimulating.red → z.stimulating.red ≤ 3825 →
      exec (.zoneSet c) s = .next (State.replied { s.popRequest c with zones := vset s.zones i z } c .zoneSet tag .ok [])) ∧
    (7 < field payload 0 1 ∨ 1 < field payload 1 1 ∨ 1 < field payload 8 1 ∨ z.ix1 < z.ix0 ∨ 31 < z.ix1 ∨
        z.iy1 < z.iy0 ∨ 31 < z.iy1 ∨ z.iz1 < z.iz0 ∨ 31 < z.iz1 ∨ z.shutIn.red < z.shutIn.amber ∨
        3825 < z.shutIn.red ∨ z.circulating.red < z.circulating.amber ∨ 3825 < z.circulating.red ∨
        z.stimulating.red < z.stimulating.amber ∨ 3825 < z.stimulating.red →
      exec (.zoneSet c) s = .next ((s.popRequest c).replied c .zoneSet tag .range []))

/-! ## Event queue, alert unit and journal (08, 09) -/

/-- R153, R154: EVENT FETCH returns the oldest record with a sequence above q and the number held above it, NOTHING if
there is none, and changes nothing; EVENT ACK removes every record up to n.
Section 12.5: the bytes of an event record. -/
def Obligations.EventRequests : Prop :=
  (∀ (s : State) (c : CPort) (tag : Byte) (payload : List Byte) (q : Nat), q = field payload 0 4 →
     (Served s c .eventFetch tag payload →
       (∀ pre e post, s.queue.records = pre ++ e :: post → (∀ r ∈ pre, r.sequence ≤ q) → q < e.sequence →
         exec (.eventFetch c) s = .next ((s.popRequest c).replied c .eventFetch tag .ok
           (e.bytes ++ bytesOf 1 (s.queue.records.filter fun r => decide (e.sequence < r.sequence)).length))) ∧
       ((∀ r ∈ s.queue.records, r.sequence ≤ q) →
         exec (.eventFetch c) s = .next ((s.popRequest c).replied c .eventFetch tag .nothing []))) ∧
     (Served s c .eventAck tag payload →
       ∀ left, left = s.queue.records.filter (fun r => decide (q < r.sequence)) →
         exec (.eventAck c) s = .next (State.replied
           { s.popRequest c with queue := { s.queue with records := left } } c .eventAck tag .ok
           (bytesOf 1 (s.queue.records.length - left.length) ++ bytesOf 1 left.length)))) ∧
  (∀ e : EventRecord, e.bytes =
    bytesOf 4 e.sequence ++ bytesOf 2 e.serial ++ bytesOf 6 e.originTick ++ bytesOf 2 e.voxel ++ bytesOf 1 e.ix ++
      bytesOf 1 e.iy ++ bytesOf 1 e.iz ++ bytesOf 2 e.bBest ++ bytesOf 2 e.n ++ bytesOf 2 e.weightSum ++ bytesOf 2 e.k ++
      bytesOf 1 e.openCount ++ bytesOf 1 e.zone ++ bytesOf 1 e.injection.code ++ bytesOf 1 e.level.code ++
      bytesOf 1 (e.truncated.toNat + 2 * e.limit.toNat + 4 * e.rehearsal.toNat) ++ bytesOf 1 e.picks.length ++ [0] ++
      e.picks.flatMap fun p =>
        bytesOf 1 p.channel.val ++ bytesOfInt 1 p.offset ++ bytesOf 1 p.c ++ bytesOf 1 p.motion.code)

/-- R158, R159, R161: ALERT ACK: NOTHING at GREEN, STALE below the cause, RANGE above it, and nothing changed then; at RED
PERMISSION from the survey port, and from the plant port a fall to AMBER with the flag set and the dwell restarted; at
AMBER the flag is set, and an EXPIRED dwell ends the level. Every reply carries level, cause and flag (log 14). -/
def Obligations.AlertAck : Prop :=
  ∀ (s : State) (c : CPort) (tag : Byte) (payload : List Byte) (n : Nat), Served s c .alertAck tag payload →
    n = field payload 0 4 → ∀ out : Alert → List Byte,
    out = (fun a => bytesOf 1 a.level.code ++ bytesOf 4 a.cause ++ flagByte a.acknowledged) →
    (s.alert.level = .green →
      exec (.alertAck c) s = .next ((s.popRequest c).replied c .alertAck tag .nothing (out s.alert))) ∧
    (s.alert.level ≠ .green → n < s.alert.cause →
      exec (.alertAck c) s = .next ((s.popRequest c).replied c .alertAck tag .stale (out s.alert))) ∧
    (s.alert.level ≠ .green → s.alert.cause < n →
      exec (.alertAck c) s = .next ((s.popRequest c).replied c .alertAck tag .range (out s.alert))) ∧
    (s.alert.level = .red → n = s.alert.cause → c = .survey →
      exec (.alertAck c) s = .next ((s.popRequest c).replied c .alertAck tag .permission (out s.alert))) ∧
    (∀ a : Alert, s.alert.level = .red → n = s.alert.cause → c = .plant →
      a = { s.alert with
        level := .amber, acknowledged := true, dwell := .running (s.param .amberDwell * 60000) } →
      exec (.alertAck c) s = .next (State.replied (((s.popRequest c).setAlert a).raiseBoth .alert)
        c .alertAck tag .ok (out a))) ∧
    (∀ a : Alert, s.alert.level = .amber → n = s.alert.cause → s.alert.dwell = .expired →
      a = { s.alert with level := .green, acknowledged := true, dwell := .stopped } →
      exec (.alertAck c) s = .next (State.replied (((s.popRequest c).setAlert a).raiseBoth .alert)
        c .alertAck tag .ok (out a))) ∧
    (∀ a : Alert, s.alert.level = .amber → n = s.alert.cause → s.alert.dwell ≠ .expired →
      s.alert.acknowledged = false → a = { s.alert with acknowledged := true } →
      exec (.alertAck c) s = .next (State.replied (((s.popRequest c).setAlert a).raiseBoth .alert)
        c .alertAck tag .ok (out a))) ∧
    (s.alert.level = .amber → n = s.alert.cause → s.alert.dwell ≠ .expired → s.alert.acknowledged = true →
      exec (.alertAck c) s = .next ((s.popRequest c).replied c .alertAck tag .ok (out s.alert)))

/-- R156: an event's level taken by the alert unit: NONE changes nothing; AMBER raises GREEN to AMBER, refreshes AMBER and
leaves RED; RED raises GREEN and AMBER to RED with the dwell stopped, and refreshes the cause at RED.
R157, R160, R161: the expiry of a running dwell: an acknowledged AMBER falls to GREEN, an unacknowledged one keeps its
level with the dwell EXPIRED; ALERT is raised on both ports. -/
def Obligations.AlertLevels : Prop :=
  (∀ (a : Alert) (d q : Nat),
     a.take d .none q = none ∧
     (a.level ≠ .red → a.take d .amber q = some { a with
       level := .amber, cause := q, acknowledged := false, dwell := .running d }) ∧
     (a.level = .red → a.take d .amber q = none) ∧
     (a.level ≠ .red → a.take d .red q = some { a with
       level := .red, cause := q, acknowledged := false, dwell := .stopped }) ∧
     (a.level = .red → a.take d .red q = some { a with cause := q, acknowledged := false })) ∧
  (∀ (s : State) (left : Nat) (a : Alert), s.resetAsserted = false → s.alert.dwell = .running left →
     a = (if s.alert.acknowledged then { s.alert with level := .green, dwell := .stopped }
       else { s.alert with dwell := .expired }) →
     exec .dwellExpiry s = .next ((s.setAlert a).raiseBoth .alert).transmitBoth)

/-- R162: INJECTION SET from the plant port sets the injection state and raises INJECTION on the survey port; NOTHING if it
is the state already, RANGE for an unknown code. The lines and the level stay. -/
def Obligations.InjectionSet : Prop :=
  ∀ (s : State) (c : CPort) (tag : Byte) (payload : List Byte), Served s c .injectionSet tag payload →
    (∀ i : Injection, field payload 0 1 = i.code →
      (i ≠ s.alert.injection →
        exec (.injectionSet c) s = .next (State.replied
          (({ s.popRequest c with alert := { s.alert with injection := i } } : State).raise .survey .injection)
          c .injectionSet tag .ok [])) ∧
      (i = s.alert.injection →
        exec (.injectionSet c) s = .next ((s.popRequest c).replied c .injectionSet tag .nothing []))) ∧
    (2 < field payload 0 1 →
      exec (.injectionSet c) s = .next ((s.popRequest c).replied c .injectionSet tag .range []))

/-- R168, R170 to R172: an entry offered to a journal that is not HELD, in WRAP with no post count: the pending quiet count
is flushed first, then a suppressed tally is written as REPEAT, then the entry with the next serial.
R168, R171, R173: with nothing to flush or release, an entry is written at the newest end, the oldest removed at 512, with
the next serial, and the run becomes its kind's or none; a RED EVENT entry in HOLD_AFTER_RED starts the post count, any
other counts it down, and at 0 the journal becomes HELD, in WRAP it goes on, the hold cause then standing as it was (that is
the model's reading, log 27). A flush that ends the count discards the entry.
R171: a STALL or BLIND entry in a run of 2 of its kind is not written, and the tally counts it.
R169, R170: a quiet window counts, and a count of 255 is written as QUIET.
R168, R174: while HELD or past the last serial entries and quiet windows change nothing (past the last serial: log 21).
R173: a journal that becomes HELD raises JOURNAL HELD. -/
def Obligations.JournalOffer : Prop :=
  (∀ (j : Journal) (b : EntryBody) (post : Nat), j.held = false → j.spent = false → j.post = none →
    j.next + 2 < 4294967295 → j.entries.length + 3 ≤ 512 → j.suppresses b = false →
    (j.run = none → j.tally = 0) → ∀ q r : List EntryBody,
    q = (if j.quiet = 0 then [] else [.quiet j.quiet]) →
    r = (match j.run with
      | some (k, _) => if j.tally = 0 then [] else [.repeated k j.tally]
      | none => []) →
    (j.offer false post b).1.entries = j.entries ++ ((q ++ r ++ [b]).zipIdx j.next).map (fun e => ⟨e.2, e.1⟩) ∧
    (j.offer false post b).1.next = j.next + q.length + r.length + 1 ∧
    (j.offer false post b).1.quiet = 0 ∧ (j.offer false post b).1.tally = 0 ∧ (j.offer false post b).2 = false) ∧
  (∀ (j : Journal) (b : EntryBody) (hold red : Bool) (post : Nat) (kind : Option RunKind) (left : Option Nat),
    j.held = false → j.spent = false → j.quiet = 0 → j.tally = 0 → j.suppresses b = false →
    red = (hold && match b with
      | .event _ .red => true
      | _ => false) →
    kind = (match b with
      | .stall _ _ => some .stall
      | .blind _ _ => some .blind
      | _ => none) →
    left = (if red then some post else j.post.map fun n => n - 1) →
    j.offer hold post b =
      ({ entries := (if j.entries.length < 512 then j.entries else j.entries.tail) ++ [⟨j.next, b⟩]
         next := if j.next < 4294967295 then j.next + 1 else j.next
         quiet := 0
         run := match kind, j.run with
           | some k, some (k', _) => some (k, if k' = k then 2 else 1)
           | some k, none => some (k, 1)
           | none, _ => none
         tally := 0
         held := decide (left = some 0) && hold
         post := if left = some 0 then none else left
         cause := if red then some j.next else j.cause
         spent := decide (4294967295 ≤ j.next) }, decide (left = some 0) && hold)) ∧
  (∀ (j : Journal) (b : EntryBody) (post : Nat), j.held = false → j.spent = false → 0 < j.quiet → j.post = some 1 →
    j.suppresses b = false → j.next < 4294967295 →
    j.offer true post b =
      ({ j with
         entries := (if j.entries.length < 512 then j.entries else j.entries.tail) ++ [⟨j.next, .quiet j.quiet⟩]
         next := j.next + 1, quiet := 0, held := true, post := none }, true)) ∧
  (∀ (j : Journal) (b : EntryBody) (hold : Bool) (post : Nat) (k : RunKind), j.held = false → j.spent = false →
    j.run = some (k, 2) →
    (match b with
      | .stall _ _ => k = .stall
      | .blind _ _ => k = .blind
      | _ => False) →
    j.suppresses b = true ∧
    j.offer hold post b = ({ j with tally := if j.tally < 4294967295 then j.tally + 1 else j.tally }, false)) ∧
  (∀ (j : Journal) (hold : Bool) (post : Nat), j.held = false → j.spent = false →
    (j.quiet + 1 ≠ 255 → j.quietWindow hold post = ({ j with quiet := j.quiet + 1 }, false)) ∧
    (j.quiet + 1 = 255 → j.post = none → j.next < 4294967295 →
      j.quietWindow hold post =
        ({ j with
           entries := (if j.entries.length < 512 then j.entries else j.entries.tail) ++ [⟨j.next, .quiet 255⟩]
           next := j.next + 1, quiet := 0 }, false))) ∧
  (∀ (j : Journal) (b : EntryBody) (hold : Bool) (post : Nat), j.held = true ∨ j.spent = true →
    j.offer hold post b = (j, false) ∧ j.quietWindow hold post = (j, false)) ∧
  (∀ (s : State) (b : EntryBody) (r : Journal × Bool),
    (r = s.journal.offer (s.param .journalMode == 1) (s.param .postCount) b →
      s.offer b = if r.2 then ({ s with journal := r.1 } : State).raise .survey .journalHeld
        else { s with journal := r.1 }) ∧
    (r = s.journal.quietWindow (s.param .journalMode == 1) (s.param .postCount) →
      s.quietWindow = if r.2 then ({ s with journal := r.1 } : State).raise .survey .journalHeld
        else { s with journal := r.1 }))

/-- R175, R176, R177: JOURNAL READ flushes the pending quiet count and returns at most 16 entries from a serial on; JOURNAL
RELEASE ends the held state and offers RESUMED, and is answered NOTHING otherwise; JOURNAL CLEAR empties the journal and
keeps the next serial (a NOTHING reply to JOURNAL READ carries its values: log 14; the run length when the run is none: log
43).
R175: OVERWRITTEN is set when the oldest held serial, or the next serial of an empty journal, is above 1 and above the serial
named (the serial after the last one: log 21).
Section 12.6: an entry is 24 bytes: its serial, the code and the content of its kind, and zeros.
R170, R173: the flush writes the count as QUIET, which counts a post count down and so may end it. -/
def Obligations.JournalRequests : Prop :=
  (∀ (s : State) (c : CPort) (tag : Byte) (payload : List Byte),
     (Served s c .journalRead tag payload → ∀ (j : Journal) (es : List Entry) (run : List Byte) (oldest : Nat),
       j = (s.popRequest c).flushQuiet.journal →
       es = (j.entries.filter fun e => decide (field payload 0 4 ≤ e.serial)).take 16 →
       (∀ k n, j.run = some (k, n) → run = bytesOf 1 k.code ++ bytesOf 1 n) → (j.run = none → run = [0, 0]) →
       oldest = (match j.entries with
         | e :: _ => e.serial
         | [] => if j.spent then j.next + 1 else j.next) →
       exec (.journalRead c) s = .next (State.replied (s.popRequest c).flushQuiet c .journalRead tag
         (if es = [] then .nothing else .ok)
         (bytesOf 1 ((decide (1 < oldest ∧ field payload 0 4 < oldest)).toNat + 2 * j.held.toNat) ++ bytesOf 4 j.next ++
           bytesOf 2 (j.post.getD 0xFFFF) ++ run ++ bytesOf 4 j.tally ++ bytesOf 1 es.length ++
           es.flatMap Entry.bytes))) ∧
     (Served s c .journalRelease tag payload →
       (s.journal.held = true →
         exec (.journalRelease c) s = .next (State.replied
           (({ s.popRequest c with journal := { s.journal with held := false, cause := none } } : State).offer .resumed)
           c .journalRelease tag .ok [])) ∧
       (s.journal.held = false →
         exec (.journalRelease c) s = .next ((s.popRequest c).replied c .journalRelease tag .nothing []))) ∧
     (Served s c .journalClear tag payload →
       exec (.journalClear c) s = .next (State.replied
         { s.popRequest c with journal :=
           { entries := [], next := s.journal.next, quiet := 0, run := none, tally := 0, held := false, post := none
             cause := none, spent := s.journal.spent } }
         c .journalClear tag .ok []))) ∧
  (∀ (e : Entry) (content : List Byte),
    content = (match e.body with
      | .quiet n => [1] ++ bytesOf 1 n
      | .peak w v o b k n =>
        [2] ++ bytesOf 6 w ++ bytesOf 2 v ++ bytesOf 1 o ++ bytesOf 2 b ++ bytesOf 2 k ++ bytesOf 2 n
      | .blind w n => [3] ++ bytesOf 6 w ++ bytesOf 2 n
      | .stall w l => [4] ++ bytesOf 6 w ++ bytesOf 2 l
      | .slip f n => [5] ++ bytesOf 6 f ++ bytesOf 6 n
      | .trigger o n w r => [6] ++ bytesOf 1 o.code ++ bytesOf 1 n.code ++ bytesOf 6 w ++ flagByte r
      | .event q l => [7] ++ bytesOf 4 q ++ bytesOf 1 l.code
      | .suppressed v b => [8] ++ bytesOf 2 v ++ bytesOf 2 b
      | .evicted q => [9] ++ bytesOf 4 q
      | .dropped q => [10] ++ bytesOf 4 q
      | .bank n d => [11] ++ bytesOf 2 n ++ bytesOf 1 d
      | .channel j o n => [12] ++ bytesOf 1 j.val ++ bytesOf 1 o.code ++ bytesOf 1 n.code
      | .run stop => [13] ++ flagByte stop
      | .repeated k n => [14] ++ bytesOf 1 k.code ++ bytesOf 4 n
      | .resumed => [15]) →
    e.bytes = bytesOf 4 e.serial ++ content ++ List.replicate (20 - content.length) 0 ∧ e.bytes.length = 24) ∧
  (∀ (s t : State) (left : Option Nat),
    (s.journal.quiet = 0 ∨ s.journal.held = true ∨ s.journal.spent = true → s.flushQuiet = s) ∧
    (s.journal.quiet ≠ 0 → s.journal.held = false → s.journal.spent = false → s.journal.next < 4294967295 →
      left = (s.journal.post.map fun n => n - 1) →
      t = { s with journal := { s.journal with
        entries := (if s.journal.entries.length < 512 then s.journal.entries else s.journal.entries.tail) ++
          [⟨s.journal.next, .quiet s.journal.quiet⟩]
        next := s.journal.next + 1, quiet := 0
        held := decide (left = some 0 ∧ s.param .journalMode = 1), post := if left = some 0 then none else left } } →
      s.flushQuiet = if left = some 0 ∧ s.param .journalMode = 1 then t.raise .survey .journalHeld else t))

/-! ## Conditioning (01) -/

/-- R5, R6, R7: a measured sample brings its first difference and its magnitude into its tick, a filled one neither; A is the
largest difference in size, the first of equals giving the sign, and M the largest magnitude.
R9, R10, R13: an average moves by floor((256 A − old) / 2 to the power k), between its old value and 256 A, both included;
the first complete tick after a restart sets both averages from its A instead.
R10: once settling is done the LTA keeps its value on a tick after a c of at least the freeze level; the STA never does.
R11: the ratio is the smaller of 255 and floor(16 STA / L), L the larger of the LTA and 256 times the floor.
R13, R14: the first complete tick after a restart stores c = 0, and counts as the first tick of the settle length; every
tick of a settling channel takes one from it.
At a freeze level of 0 the first tick after settling is frozen too (the model's choice, log 40). -/
def Obligations.Averages : Prop :=
  (∀ (r : CondRec) (x l : Int), r.difference none = 0 ∧ magnitude none = 0 ∧ magnitude (some x) = x.natAbs ∧
     (r.last = none → r.difference (some x) = 0) ∧ (r.last = some l → r.difference (some x) = x - l)) ∧
  (∀ (k m : Nat) (d : Int) (p : PartialTick) (sign : Sign), sign = (if d < 0 then .neg else .pos) →
     accumulate none k d m = ⟨k, d.natAbs, sign, m⟩ ∧
     (p.tick = k → p.a < d.natAbs → accumulate (some p) k d m = ⟨k, d.natAbs, sign, max p.m m⟩) ∧
     (p.tick = k → d.natAbs ≤ p.a → accumulate (some p) k d m = { p with m := max p.m m })) ∧
  (∀ old a k : Nat, ((average old a k : Nat) : Int) = old + (256 * (a : Int) - old) / 2 ^ k ∧
     min old (256 * a) ≤ average old a k ∧ average old a k ≤ max old (256 * a)) ∧
  (∀ (ps : Params) (cfg : ChanConfig) (r : CondRec) (p : PartialTick) (sta lta : Nat), r.sta = some sta →
     r.lta = some lta →
     (r.complete ps cfg p).sta = some (average sta p.a (ps.get .ks)) ∧
     (r.settleRemaining = 0 → ps.get .freezeLevel ≤ r.prevC → (r.complete ps cfg p).lta = some lta) ∧
     (0 < r.settleRemaining ∨ r.prevC < ps.get .freezeLevel →
       (r.complete ps cfg p).lta = some (average lta p.a (ps.get .kl))) ∧
     (r.complete ps cfg p).settleRemaining = r.settleRemaining - 1) ∧
  (∀ floor sta lta : Nat, ratio floor sta lta = min 255 (16 * sta / max lta (256 * floor))) ∧
  (∀ (ps : Params) (cfg : ChanConfig) (k kl : Nat) (p : PartialTick),
     ((CondRec.fresh k kl).complete ps cfg p).sta = some (256 * p.a) ∧
     ((CondRec.fresh k kl).complete ps cfg p).lta = some (256 * p.a) ∧
     ((CondRec.fresh k kl).complete ps cfg p).prevC = 0 ∧
     ((CondRec.fresh k kl).complete ps cfg p).settleRemaining = 2 ^ kl - 1)

/-- R12: c is the larger of 0 and R − 16, in 0 to 239; a ratio of 16 gives 0, and so does an STA below 17/16 of the
divisor; a ratio of 255 gives 239; a settling channel stores 0, any other the c computed, and the previous c becomes the
value stored in the ring. -/
def Obligations.CharacteristicFunction : Prop :=
  (∀ (ps : Params) (cfg : ChanConfig) (r : CondRec) (p : PartialTick) (sta lta c d : Nat),
    sta = nextSta (ps.get .ks) r.sta p.a →
    lta = nextLta (ps.get .kl) (r.frozen (ps.get .freezeLevel)) r.lta p.a →
    c = charFn (ps.get .ltaFloor) sta lta → d = max lta (256 * ps.get .ltaFloor) →
    (c : Int) = max 0 ((ratio (ps.get .ltaFloor) sta lta : Int) - 16) ∧ c ≤ 239 ∧
    (ratio (ps.get .ltaFloor) sta lta = 16 → c = 0) ∧
    (0 < d → 16 * sta < 17 * d → c = 0) ∧
    (ratio (ps.get .ltaFloor) sta lta = 255 → c = 239) ∧
    (0 < r.settleRemaining → (r.complete ps cfg p).prevC = 0) ∧
    (r.settleRemaining = 0 → (r.complete ps cfg p).prevC = c)) ∧
  (∀ (ch : Channel) (ps : Params) (r : CondRec) (asn : Nat) (x : Option Int) (p : PartialTick), asn % 4 = 3 →
    p = accumulate r.part (asn / 4) (r.difference x) (magnitude x) →
    ∃ r2 : CondRec, (ch.takeSample ps r asn x).1.cond = some r2 ∧
      r2 = ({ r with last := x.or r.last, part := some p } : CondRec).complete ps ch.cfg p ∧
      ∃ slot : Slot, Store.read (ch.takeSample ps r asn x).1.ring (p.tick % 1024) = some slot ∧ slot.tick = p.tick ∧
        slot.c = r2.prevC)

/-- R7, R8, R15: the sample at ASN 4k + 3 completes tick k: the tick is stored with its c in slot k mod 1024, replacing what
the slot held, and no other slot changes; any other sample stores nothing.
R14, R18, R19, R20: what the completed tick reports: settle done with the last settling tick, whether it is counted, the clip
condition before and after it, and outside settling the noise and quiet conditions of the LTA after it; the slot holds the
tick, the stored c and the peak sign.
R15, R16, R19: the held range, the clip condition and a ring read. -/
def Obligations.TickCompletion : Prop :=
  (∀ (c : Channel) (ps : Params) (r : CondRec) (asn : Nat) (x : Option Int),
     (asn % 4 = 3 → (∀ p, r.part = some p → p.tick = asn / 4) →
       ∃ slot : Slot, slot.tick = asn / 4 ∧
         Store.read (c.takeSample ps r asn x).1.ring (asn / 4 % 1024) = some slot ∧
         (∀ i, i ≠ asn / 4 % 1024 → Store.read (c.takeSample ps r asn x).1.ring i = Store.read c.ring i) ∧
         (c.takeSample ps r asn x).1.completeThrough = some (asn / 4) ∧
         (∃ r2, (c.takeSample ps r asn x).1.cond = some r2 ∧ slot.c = r2.prevC) ∧
         (c.takeSample ps r asn x).2 ≠ none) ∧
     (asn % 4 ≠ 3 → (c.takeSample ps r asn x).1.ring = c.ring ∧ (c.takeSample ps r asn x).2 = none)) ∧
  (∀ (c : Channel) (ps : Params) (r r2 : CondRec) (asn : Nat) (x : Option Int) (p : PartialTick), asn % 4 = 3 →
     p = accumulate r.part (asn / 4) (r.difference x) (magnitude x) →
     (c.takeSample ps r asn x).1.cond = some r2 →
     ∃ rep : TickReport, (c.takeSample ps r asn x).2 = some rep ∧ rep.tick = p.tick ∧
       (rep.settleDone = true ↔ r.settleRemaining = 1) ∧
       (rep.counted = true ↔ r.settleRemaining = 0) ∧
       (rep.clipBefore = true ↔ ∃ q k, r.lastClipped = some q ∧ r.completeThrough = some k ∧ k - q ≤ 125) ∧
       (rep.clipAfter = true ↔ c.cfg.clip ≤ p.m ∨ ∃ q, r.lastClipped = some q ∧ p.tick - q ≤ 125) ∧
       r2.lastClipped = (if c.cfg.clip ≤ p.m then some p.tick else r.lastClipped) ∧
       (rep.noisy = true ↔ r.settleRemaining = 0 ∧ c.cfg.noise ≠ 0 ∧ ∃ l, r2.lta = some l ∧ c.cfg.noise ≤ l / 256) ∧
       (rep.quiet = true ↔ r.settleRemaining = 0 ∧ c.cfg.quiet ≠ 0 ∧ ∃ l, r2.lta = some l ∧ l / 256 ≤ c.cfg.quiet) ∧
       Store.read (c.takeSample ps r asn x).1.ring (p.tick % 1024) = some ⟨p.tick, r2.prevC, p.sign⟩) ∧
  (∀ (c : Channel) (r : CondRec),
     (c.cond = none → c.completeThrough = none ∧ c.oldestHeld = none ∧ c.clipActive = false) ∧
     (c.cond = some r → c.completeThrough = r.completeThrough ∧
       (r.completeThrough = none → c.oldestHeld = none) ∧
       (∀ k, r.completeThrough = some k → c.oldestHeld = some (max r.restartTick (k - 1023))) ∧
       (c.clipActive = true ↔ ∃ q k, r.lastClipped = some q ∧ r.completeThrough = some k ∧ k - q ≤ 125))) ∧
  (∀ (ring : Ring) (t : Nat), Ring.at ring t = match Store.read ring (t % 1024) with
     | some x => if x.tick = t then some x else none
     | none => none)

/-- R31: a condition is established when its run count reaches the mute hold and ceases when it reaches the release hold,
the count then 0; a report against the run sets the count to 0.
R30, R31, R32, R39: a tick report taken by the supervisor: settle done moves SETTLING to LIVE; a clip condition that
becomes active latches CLIPPED; a counted report of a conditioned channel counts both holds, latches NOISY and QUIET as
they become established, and then decides muting.
R39, R42: an alarm that becomes set sets the changed flag and raises CHANNEL; one already set changes nothing.
R32: a LIVE or LAGGING channel with auto-mute and an established condition is MUTED, a MUTED one without one of the two
LIVE; any other keeps its state.
R42, R43: a change of state sets the changed flag, raises CHANNEL and offers a CHANNEL entry.
The CHANNEL notice of a move is raised ahead of its journal entry (log 42).
A report against the run sets to 0 also a count that a shortened hold has left past it (the model's choice, log 44). -/
def Obligations.HoldCounts : Prop :=
  (∀ (h : Hold) (mute release : Nat), 0 < mute → 0 < release →
    (h.established = false → h.count false mute release = ⟨false, 0⟩) ∧
    (h.established = false → h.run + 1 < mute → h.count true mute release = ⟨false, h.run + 1⟩) ∧
    (h.established = false → mute ≤ h.run + 1 → h.count true mute release = ⟨true, 0⟩) ∧
    (h.established = true → h.count true mute release = ⟨true, 0⟩) ∧
    (h.established = true → h.run + 1 < release → h.count false mute release = ⟨true, h.run + 1⟩) ∧
    (h.established = true → release ≤ h.run + 1 → h.count false mute release = ⟨false, 0⟩)) ∧
  (∀ (s : State) (j : Fin 256) (old dest : ChanState),
    ((s.chan j).state = old → s.moveFrom j old dest =
      ((s.setChan j { s.chan j with state := dest, changed := true }).raise .survey .channel).offer
        (.channel j old dest)) ∧
    ((s.chan j).state ≠ old → s.moveFrom j old dest = s)) ∧
  (∀ (s : State) (j : Fin 256) (add after : Alarms),
    after = ⟨(s.chan j).alarms.noisy || add.noisy, (s.chan j).alarms.quiet || add.quiet,
      (s.chan j).alarms.clipped || add.clipped⟩ →
    (after = (s.chan j).alarms → s.latch j add = s) ∧
    (after ≠ (s.chan j).alarms → s.latch j add =
      (s.setChan j { s.chan j with alarms := after, changed := true }).raise .survey .channel)) ∧
  (∀ (s : State) (j : Fin 256) (r : TickReport) (noisy quiet : Hold),
    noisy = (s.chan j).noisyHold.count r.noisy (125 * s.param .muteHold) (125 * s.param .releaseHold) →
    quiet = (s.chan j).quietHold.count r.quiet (125 * s.param .muteHold) (125 * s.param .releaseHold) →
    s.countHolds j r = (s.setChan j { s.chan j with noisyHold := noisy, quietHold := quiet }).latch j
      ⟨!(s.chan j).noisyHold.established && noisy.established, !(s.chan j).quietHold.established && quiet.established,
        false⟩) ∧
  (∀ (s : State) (j : Fin 256) (mute : Bool),
    mute = ((s.chan j).cfg.autoMute && ((s.chan j).noisyHold.established || (s.chan j).quietHold.established)) →
    ((s.chan j).state = .live ∨ (s.chan j).state = .lagging → mute = true →
      s.muteDecision j = s.moveFrom j (s.chan j).state .muted) ∧
    ((s.chan j).state = .muted → mute = false → s.muteDecision j = s.moveFrom j .muted .live) ∧
    ((s.chan j).state = .live ∨ (s.chan j).state = .lagging → mute = false → s.muteDecision j = s) ∧
    ((s.chan j).state = .muted → mute = true → s.muteDecision j = s) ∧
    ((s.chan j).state = .off ∨ (s.chan j).state = .await ∨ (s.chan j).state = .settling ∨ (s.chan j).state = .lost →
      s.muteDecision j = s)) ∧
  (∀ (s : State) (j : Fin 256) (r : TickReport) (t u : State),
    t = (if r.settleDone then s.moveFrom j .settling .live else s) →
    u = (if r.clipBefore = false ∧ r.clipAfter = true then t.latch j ⟨false, false, true⟩ else t) →
    (r.counted = false → s.supervise j r = u) ∧
    (r.counted = true → (u.chan j).state = .settling ∨ (u.chan j).state = .live ∨ (u.chan j).state = .lagging ∨
      (u.chan j).state = .muted → s.supervise j r = (u.countHolds j r).muteDecision j) ∧
    (r.counted = true → (u.chan j).state = .off ∨ (u.chan j).state = .await ∨ (u.chan j).state = .lost →
      s.supervise j r = u))

/-! ## Stacking and triggering (06, 07) -/

/-- R108, R110: the expiry of the hold-off timer, with enough ready members for a window that is not blind: the window in
flight has the ready members as contributors, every other member is LAGGING, and the timer is stopped; with too few
ready members the window is blind and completes at once, so the front has moved on.
R33, R108, R110: a stacking start moves each laggard to LAGGING (its CHANNEL notice ahead of its entry: log 42), then offers a
STALL entry if there is one, then forms the window.
R115: the completion of a window, with no slip requested and no channel holding a tick of the due line of the next
window: the trigger unit has taken the window's result, the front advances by one, the scheduler collects, and every
weight in force is the configured one.
R115: a completion in general, step by step; the ports whose slips were taken then go on one after another (log 32). That
released packets follow the due test (log 11), that a swap taken inside a completion or a slip is followed by that one
test (log 12), and that the rings are read at the completion (log 7) is the model's reading.
R34, R35: the lost check and the rejoin test: which channels they move, in any order (log 4), and how.
R94, R95: a PENDING swap considered: when it is taken, and what it does.
R119: a slip whose target lies above the front, in its order of effects; at or below it only the wait ends.
R104, R105, R106: the due test and the readiness test of HOLDING, for windows that are not blind.
R34, R101, R105: what a store report makes the scheduler do in each of its states, and the rejoin test.
R102, R103: who is ready, who is a member of A(F), and the members found ready and not ready, in channel order.
BANK is offered before BANK DONE is raised (the model's choice, log 45). -/
def Obligations.Windows : Prop :=
  (∀ (s : State) (f : Nat), s.resetAsserted = false → s.sched.state = .holding → s.sched.front = some f →
     s.param .smin ≤ s.readyMembers.length →
     ∃ t : State, exec .holdOffExpiry s = .next t.transmitBoth ∧ t = s.startStacking ∧
       t.sched = { s.sched with
         state := .stacking, timer := none
         window := some ⟨f, s.readyMembers.map fun e => (e.1, e.2.weightInForce), s.banks.activeSerial,
           s.banks.dMax, false⟩ } ∧
       (∀ j, (t.chan j).state =
         if s.isMember j = true ∧ (s.chan j).ready f s.banks.dMax = false then .lagging else (s.chan j).state) ∧
       (∀ j, (t.chan j).cond = (s.chan j).cond ∧ (t.chan j).ring = (s.chan j).ring ∧ (t.chan j).cfg = (s.chan j).cfg ∧
         (t.chan j).weightInForce = (s.chan j).weightInForce ∧ (t.chan j).alarms = (s.chan j).alarms) ∧
       t.params = s.params ∧ t.ports = s.ports ∧ t.hubs = s.hubs ∧ t.banks = s.banks ∧ t.trig = s.trig ∧
       t.zones = s.zones ∧ t.queue = s.queue ∧ t.alert = s.alert ∧ t.plant = s.plant ∧ t.array = s.array) ∧
  (∀ (s : State) (f : Nat), SchedOk s → s.resetAsserted = false → s.sched.state = .holding → s.sched.front = some f →
     s.readyMembers.length < s.param .smin →
     ∃ (t : State) (g : Nat), exec .holdOffExpiry s = .next t.transmitBoth ∧ t.sched.front = some g ∧ f < g) ∧
  (∀ (s : State) (f : Nat), s.sched.front = some f →
     ∃ (l : List (Fin 256)) (o : List Nat) (t : State), l.Perm (s.unreadyMembers.map fun e => e.1) ∧
       t = l.foldl (fun t j => t.moveFrom j .live .lagging) { s with order := o } ∧
       s.startStacking = { (if l = [] then t else t.offer (.stall f l.length)) with
         sched := { s.sched with
           state := .stacking, timer := none
           window := some ⟨f, s.readyMembers.map fun e => (e.1, e.2.weightInForce), s.banks.activeSerial,
             s.banks.dMax, decide (s.readyMembers.length < s.param .smin)⟩ } }) ∧
  (∀ (s : State) (w : Window), s.resetAsserted = false → s.sched.window = some w → s.sched.slips = [] →
     (∀ j k, (s.chan j).completeThrough = some k → k < 16 * (w.window + 1) + 15) →
     ∃ t : State, exec .stackCompletion s = .next t.transmitBoth ∧
       t.sched = ⟨some (w.window + 1), .collecting, none, none, []⟩ ∧
       (∀ j, (t.chan j).weightInForce = (s.chan j).cfg.weight ∧ (t.chan j).ring = (s.chan j).ring ∧
         (t.chan j).alarms = (s.chan j).alarms ∧ (t.chan j).cfg = (s.chan j).cfg) ∧
       t.trig = (s.trig.take s.params (s.windowResult w)).trig ∧
       t.params = s.params ∧ t.ports = s.ports ∧ t.hubs = s.hubs ∧ t.zones = s.zones ∧ t.array = s.array) ∧
  (∀ (s : State) (w : Window) (t1 t2 t3 t4 : State), s.resetAsserted = false → s.sched.window = some w →
     t1 = s.takeResult (s.windowResult w) →
     t2 = { t1 with
       sched := { t1.sched with front := some (w.window + 1), state := .collecting, timer := none, window := none }
       channels := vmap (fun x => { x with weightInForce := x.cfg.weight }) t1.channels } →
     t3 = ((t2.lostCheck (w.window + 1)).rejoinAll (w.window + 1)).considerSwap →
     t4 = t3.sched.slips.foldl State.takeSlip t3 →
     exec .stackCompletion s = .next (State.transmitBoth
       (s.sched.slips.foldl (fun t r => if (t.port r.port).slipWait then t else (t.deliverHandled r.port).promote r.port)
         t4.dueTest))) ∧
  (∀ (s : State) (f : Nat),
     (∃ (l : List (Fin 256)) (o : List Nat), l.Nodup ∧
       (∀ j, j ∈ l ↔ ((s.chan j).state = .settling ∨ (s.chan j).state = .lagging ∨ (s.chan j).state = .muted) ∧
         ∃ r, (s.chan j).cond = some r ∧
           ((∃ k, r.completeThrough = some k ∧ k + s.param .lostDepth < 16 * f) ∨
             (r.completeThrough = none ∧ r.restartTick + s.param .lostDepth < 16 * f + 1))) ∧
       s.lostCheck f = l.foldl (fun t j => ((t.setChan j { t.chan j with
           state := .lost, cond := none, noisyHold := ⟨false, 0⟩, quietHold := ⟨false, 0⟩, changed := true }).raise
           .survey .channel).offer (.channel j (t.chan j).state .lost)) { s with order := o }) ∧
     (∃ (l : List (Fin 256)) (o : List Nat), l.Nodup ∧
       (∀ j, j ∈ l ↔ (s.chan j).state = .lagging ∧ ∃ a k, (s.chan j).oldestHeld = some a ∧
         (s.chan j).completeThrough = some k ∧ a ≤ 16 * f ∧ 16 * f + 15 + s.banks.dMax ≤ k) ∧
       s.rejoinAll f = l.foldl (fun t j => t.moveFrom j .lagging .live) { s with order := o })) ∧
  (∀ (s : State) (serial : Nat),
     (s.banks.standbyState = .pending → s.array = .stopped ∨ (s.sched.window = none ∧ s.trig.state = .idle) →
       s.considerSwap = s.swapBanks) ∧
     (s.banks.standbyState ≠ .pending ∨ (s.array ≠ .stopped ∧ (s.sched.window ≠ none ∨ s.trig.state ≠ .idle)) →
       s.considerSwap = s) ∧
     (serial = (if s.banks.serialCounter < 65535 then s.banks.serialCounter + 1 else 1) →
       s.swapBanks = (({ s with banks := { s.banks with
         active := s.banks.standby, standby := s.banks.active, hasActive := true
         standbyState := if s.banks.hasActive then .loading else .empty
         activeSerial := serial, dMax := s.banks.validated, outcome := .swapped serial s.banks.validated
         serialCounter := serial } } : State).offer (.bank serial s.banks.validated)).raise .survey .bankDone)) ∧
  (∀ (s : State) (r : SlipReq) (f g : Nat) (t0 t1 t2 t3 : State), s.sched.front = some f →
     g = (if r.lastTick < 696 then 0 else (r.lastTick - 696) / 16 + 1) →
     t0 = { s.setPort r.port { s.port r.port with slipWait := false } with
       sched := { s.sched with slips := s.sched.slips.filter fun x => x.port != r.port } } →
     (g ≤ f → s.takeSlip r = t0) ∧
     (f < g → t1 = t0.truncateTrigger f →
       t2 = ({ t1 with
         sched := { t1.sched with front := some g, state := .collecting, timer := none, window := none } } :
           State).offer (.slip f (g - f)) →
       t3 = (({ t2 with channels := vmap (fun x => { x with weightInForce := x.cfg.weight }) t2.channels } :
         State).lostCheck g).rejoinAll g →
       s.takeSlip r = (t3.logError r.port .slip (match (t3.port r.port).handling with
         | some h => headerOfBody h.body
         | none => ⟨none, none, none, none, none, none, none⟩)).considerSwap)) ∧
  (∀ (s : State) (f : Nat), s.sched.front = some f → s.sched.window = none →
     (s.sched.state = .collecting →
       ((∀ j k, (s.chan j).state = .settling ∨ (s.chan j).state = .live ∨ (s.chan j).state = .lagging ∨
           (s.chan j).state = .muted → (s.chan j).completeThrough = some k → k < 16 * f + 15 + s.banks.dMax) →
         s.dueTest = s) ∧
       ((∃ j k, ((s.chan j).state = .settling ∨ (s.chan j).state = .live ∨ (s.chan j).state = .lagging ∨
           (s.chan j).state = .muted) ∧ (s.chan j).completeThrough = some k ∧ 16 * f + 15 + s.banks.dMax ≤ k) →
         ((∃ j, s.isMember j = true ∧ (s.chan j).ready f s.banks.dMax = false) → s.param .holdOff ≠ 0 →
           s.dueTest = { s with sched := { s.sched with state := .holding, timer := some (s.param .holdOff) } }) ∧
         ((∀ j, s.isMember j = true → (s.chan j).ready f s.banks.dMax = true) ∨ s.param .holdOff = 0 →
           s.param .smin ≤ s.readyMembers.length → s.dueTest = s.startStacking))) ∧
     (s.sched.state = .holding →
       ((∃ j, s.isMember j = true ∧ (s.chan j).ready f s.banks.dMax = false) → s.holdingTest = s) ∧
       ((∀ j, s.isMember j = true → (s.chan j).ready f s.banks.dMax = true) → s.param .smin ≤ s.readyMembers.length →
         s.holdingTest = s.startStacking))) ∧
  (∀ (s : State) (j : Fin 256) (k : Nat),
     (s.sched.state = .unset → s.array = .running → s.scheduleReport j k =
       ({ s with sched := { s.sched with front := some (k / 16), state := .collecting } } : State).dueTest) ∧
     (s.sched.state = .unset → s.array ≠ .running → s.scheduleReport j k = s) ∧
     (s.sched.state = .holding → s.scheduleReport j k = if s.isMember j = true then s.holdingTest else s) ∧
     (s.sched.state = .stacking → s.scheduleReport j k = s) ∧
     (∀ f c, s.sched.state = .collecting → s.sched.front = some f → (s.chan j).completeThrough = some c →
       (16 * f + 15 + s.banks.dMax ≤ c → (s.chan j).state = .settling ∨ (s.chan j).state = .live ∨
         (s.chan j).state = .lagging ∨ (s.chan j).state = .muted → s.scheduleReport j k = s.dueTest) ∧
       (c < 16 * f + 15 + s.banks.dMax → s.scheduleReport j k = s)) ∧
     (∀ f, s.sched.front = some f → ∀ t, t = s.moveFrom j .lagging .live →
       ((s.chan j).rejoins f s.banks.dMax = true →
         s.rejoinTest j = if t.isMember j = s.isMember j then t else t.holdingTest) ∧
       ((s.chan j).rejoins f s.banks.dMax = false → s.rejoinTest j = s))) ∧
  (∀ (s : State) (j : Fin 256),
     (s.sched.front = none → s.isMember j = false) ∧
     (∀ f, s.sched.front = some f → (s.isMember j = true ↔ (s.chan j).state = .live ∧ (s.chan j).weightInForce ≠ 0 ∧
       ∃ o, (s.chan j).oldestHeld = some o ∧ o ≤ 16 * f))) ∧
  (∀ (c : Channel) (w d : Nat), c.ready w d = true ↔ ∃ o k, c.oldestHeld = some o ∧ c.completeThrough = some k ∧
     o ≤ 16 * w ∧ 16 * w + 15 + d ≤ k) ∧
  (∀ (s : State) (f : Nat), s.sched.front = some f →
     s.readyMembers = ((List.finRange 256).filter fun j => s.isMember j && (s.chan j).ready f s.banks.dMax).map
       (fun j => (j, s.chan j)) ∧
     s.unreadyMembers = ((List.finRange 256).filter fun j => s.isMember j && !(s.chan j).ready f s.banks.dMax).map
       fun j => (j, s.chan j))

/-- R111: the brightness of a voxel at a tick is floor(16 S / N), S the weighted sum of the contributors' c at the tick plus
the delay, N the sum of the weights; a c is read from the slot of its tick, and an absent read contributes 0 (R16). With at
least one contributor, every weight at least 1 and every c read at most 239, no brightness exceeds 3824.
R113: the window peak is the largest brightness of the window; among equals the earliest tick wins, and among equals at
one tick the lowest voxel; where every brightness is 0 the peak stands at the window's first tick and voxel 0; a blind
window's result is BLIND with the window, n and N.
R114: the peak record holds the window, the contributors and the bank serial, and K counts the contributors whose c at the
peak reaches the pick level; that an absent read does not count at a pick level of 0 either is the model's choice (log 37),
and so is the moment of the reads (log 7). -/
def Obligations.BrightnessAndPeak : Prop :=
  (∀ (s : State) (l : List Contributor) (v t : Nat), (∀ e ∈ l, 1 ≤ e.2) → l ≠ [] → (∀ j u, s.readC j u ≤ 239) →
     s.brightness l v t ≤ 3824) ∧
  (∀ (s : State) (w : Window) (p : Peak), 0 < s.banks.grid.voxels → p = s.windowPeak w →
     16 * w.window ≤ p.tick ∧ p.tick ≤ 16 * w.window + 15 ∧ p.voxel < s.banks.grid.voxels ∧
     p.b = s.brightness w.contributors p.voxel p.tick ∧
     (∀ v t, v < s.banks.grid.voxels → 16 * w.window ≤ t → t ≤ 16 * w.window + 15 →
       s.brightness w.contributors v t < p.b ∨
         (s.brightness w.contributors v t = p.b ∧ (p.tick < t ∨ (p.tick = t ∧ p.voxel ≤ v)))) ∧
     ((∀ v t, v < s.banks.grid.voxels → 16 * w.window ≤ t → t ≤ 16 * w.window + 15 →
         s.brightness w.contributors v t = 0) →
       p.tick = 16 * w.window ∧ p.voxel = 0 ∧ p.b = 0) ∧
     (w.blind = false → s.windowResult w = .peak p)) ∧
  (∀ (s : State) (w : Window), w.blind = true →
     s.windowResult w = .blind w.window w.contributors.length (w.contributors.map fun e => e.2).sum) ∧
  (∀ (s : State) (l : List Contributor) (v t : Nat), s.brightness l v t =
     16 * (l.map fun e => e.2 * s.readC e.1 (t + s.banks.active.delay v e.1.val)).sum / (l.map fun e => e.2).sum) ∧
  (∀ (s : State) (j : Fin 256) (t : Nat), s.readC j t = match Store.read (s.chan j).ring (t % 1024) with
     | some x => if x.tick = t then x.c else 0
     | none => 0) ∧
  (∀ (s : State) (w : Window) (p : Peak), p = s.windowPeak w →
     p.window = w.window ∧ p.contributors = w.contributors ∧ p.serial = w.serial ∧
     p.k = w.contributors.countP fun e =>
       match Store.read (s.chan e.1).ring ((p.tick + s.banks.active.delay p.voxel e.1.val) % 1024) with
       | some x => decide (x.tick = p.tick + s.banks.active.delay p.voxel e.1.val ∧ s.param .pickLevel ≤ x.c)
       | none => false)

/-- R126 to R130: the trigger unit's decision on a window result. In IDLE nothing below T1; a coherent peak opens; an
incoherent one arms, and is rejected at a confirm limit of 1.
R127, R128: in ARMED a peak that reaches T1 and is coherent opens with the higher of candidate and peak; any other peak
replaces a lower candidate and counts towards rejection; a BLIND result counts and leaves the candidate.
R129, R130: in OPEN every result counts; a greater B* replaces the best peak; a peak below T_release and a BLIND result add
to the quiet count, a peak at or above it sets the count to 0; the event closes at the quiet close, else with LIMIT at
E_max, an opening window included.
R116, R125, R169: a result handed on: the decision first, then the window's own entry, or the quiet count for a peak below
the journal level in IDLE with no move made (a move back to IDLE included: log 13), then a TRIGGER entry for each move with
the window's number, then the close. -/
def Obligations.TriggerDecision : Prop :=
  (∀ (ps : Params) (t : Trigger) (p : Peak) (w n m : Nat),
     (t.state = .idle → p.b < ps.get .t1 → t.take ps (.peak p) = ⟨t, [], none⟩) ∧
     (t.state = .idle → t.take ps (.blind w n m) = ⟨t, [], none⟩) ∧
     (t.state = .idle → ps.get .t1 ≤ p.b → ps.get .kmin ≤ p.k → 0 < ps.get .quietClose →
       (1 < ps.get .eMax → t.take ps (.peak p) =
         ⟨⟨.opened, some p, 0, 1, 0⟩, [⟨.idle, .armed, false⟩, ⟨.armed, .opened, false⟩], none⟩) ∧
       (ps.get .eMax ≤ 1 → t.take ps (.peak p) =
         ⟨⟨.idle, none, 0, 0, 0⟩, [⟨.idle, .armed, false⟩, ⟨.armed, .opened, false⟩, ⟨.opened, .idle, false⟩],
           some ⟨p, 1, true⟩⟩)) ∧
     (t.state = .idle → ps.get .t1 ≤ p.b → p.k < ps.get .kmin →
       (1 < ps.get .confirmLimit →
         t.take ps (.peak p) = ⟨⟨.armed, some p, 1, 0, 0⟩, [⟨.idle, .armed, false⟩], none⟩) ∧
       (ps.get .confirmLimit ≤ 1 →
         t.take ps (.peak p) =
           ⟨⟨.idle, none, 0, 0, 0⟩, [⟨.idle, .armed, false⟩, ⟨.armed, .idle, true⟩], none⟩)) ∧
     (∀ (cand higher : Peak), t.state = .armed → t.candidate = some cand →
       higher = (if cand.b < p.b then p else cand) →
       (ps.get .t1 ≤ p.b → ps.get .kmin ≤ p.k → 0 < ps.get .quietClose →
         (1 < ps.get .eMax → t.take ps (.peak p) =
           ⟨⟨.opened, some higher, 0, 1, 0⟩, [⟨.armed, .opened, false⟩], none⟩) ∧
         (ps.get .eMax ≤ 1 → t.take ps (.peak p) =
           ⟨⟨.idle, none, 0, 0, 0⟩, [⟨.armed, .opened, false⟩, ⟨.opened, .idle, false⟩],
             some ⟨higher, 1, true⟩⟩)) ∧
       (p.b < ps.get .t1 ∨ p.k < ps.get .kmin →
         (t.armedCount + 1 < ps.get .confirmLimit → t.take ps (.peak p) =
           ⟨{ t with candidate := some higher, armedCount := t.armedCount + 1 }, [], none⟩) ∧
         (ps.get .confirmLimit ≤ t.armedCount + 1 → t.take ps (.peak p) =
           ⟨⟨.idle, none, 0, 0, 0⟩, [⟨.armed, .idle, true⟩], none⟩))) ∧
     (t.state = .armed → t.armedCount + 1 < ps.get .confirmLimit →
       t.take ps (.blind w n m) = ⟨{ t with armedCount := t.armedCount + 1 }, [], none⟩) ∧
     (t.state = .armed → ps.get .confirmLimit ≤ t.armedCount + 1 →
       t.take ps (.blind w n m) = ⟨⟨.idle, none, 0, 0, 0⟩, [⟨.armed, .idle, true⟩], none⟩) ∧
     (∀ (best kept : Peak) (r : WindowResult) (quiet : Nat), t.state = .opened → t.candidate = some best →
       ((r = .peak p ∧ kept = (if best.b < p.b then p else best) ∧
           quiet = (if ps.get .tRelease ≤ p.b then 0 else t.quietCount + 1)) ∨
         (r = .blind w n m ∧ kept = best ∧ quiet = t.quietCount + 1)) →
       (quiet < ps.get .quietClose → t.openCount + 1 < ps.get .eMax →
         t.take ps r = ⟨{ t with candidate := some kept, openCount := t.openCount + 1, quietCount := quiet }, [], none⟩) ∧
       (ps.get .quietClose ≤ quiet →
         t.take ps r =
           ⟨⟨.idle, none, 0, 0, 0⟩, [⟨.opened, .idle, false⟩], some ⟨kept, t.openCount + 1, false⟩⟩) ∧
       (quiet < ps.get .quietClose → ps.get .eMax ≤ t.openCount + 1 →
         t.take ps r =
           ⟨⟨.idle, none, 0, 0, 0⟩, [⟨.opened, .idle, false⟩], some ⟨kept, t.openCount + 1, true⟩⟩))) ∧
  (∀ (s : State) (r : WindowResult) (d : Decision) (w : Nat) (t u v : State), d = s.trig.take s.params r →
     w = (match r with
       | .peak p => p.window
       | .blind w _ _ => w) →
     t = { s with trig := d.trig } →
     u = (match r with
       | .peak p =>
         if p.b < s.param .journalLevel ∧ s.trig.state = .idle ∧ d.moves = [] then t.quietWindow
         else t.offer (.peak p.window p.voxel (p.tick - 16 * p.window) p.b p.k p.contributors.length)
       | .blind w n _ => t.offer (.blind w n)) →
     v = d.moves.foldl (fun t m => t.offer (.trigger m.old m.new w m.rejected)) u →
     (d.close = none → s.takeResult r = v) ∧
     (∀ c, d.close = some c → s.takeResult r = v.closeEvent c false))

/-- R139 to R143: a close under a SUPPRESS zone, or with the counter used up, only offers SUPPRESSED; a close under a REPORT
zone takes the next sequence, and hands on a record of that sequence, zone and level, moving the level of the alert only if
the event is no rehearsal.
R144: a record handed on: the EVENT entry, the event queue, then the alert unit unless it carries REHEARSAL.
R150, R151: a record joins a queue of fewer than 32, its summary and an EVENT notice on both ports with it; at a full queue
it does so for the oldest record of the lowest level present, if that lies below its own, with EVICTED offered, and
otherwise only DROPPED is offered.
R156, R161: a level that changes the alert record raises ALERT on both ports.
R134 to R137: the picks: of each contributor, in channel order, the largest c found around its predicted arrival, the earliest
of equals, if it reaches the pick level; under the cap those of the largest c, of equals the lowest channel.
R82, R138: the coordinates of a voxel, and its zone: the first enabled rule whose box contains it, else the default zone,
which reports under the six threshold parameters.
R141: the level: RED at or above the red threshold of the injection state, else AMBER at or above the amber one, else
NONE. -/
def Obligations.EventCloses : Prop :=
  (∀ (s : State) (c : Close) (tr : Bool) (z : Nat), z = s.zoneOf c.best.voxel →
    ((s.zone z).suppress = true ∨ 4294967295 ≤ s.queue.counter →
      s.closeEvent c tr = s.offer (.suppressed c.best.voxel c.best.b)) ∧
    ((s.zone z).suppress = false → s.queue.counter < 4294967295 →
      ∃ e : EventRecord, s.closeEvent c tr =
          ({ s with queue := { s.queue with counter := s.queue.counter + 1 } } : State).handOn e ∧
        e.sequence = s.queue.counter + 1 ∧ e.zone = z ∧ e.voxel = c.best.voxel ∧ e.originTick = c.best.tick ∧
        e.bBest = c.best.b ∧ e.truncated = tr ∧ e.limit = c.limit ∧ e.serial = c.best.serial ∧
        e.level = ((s.zone z).thresholds s.alert.injection).level c.best.b ∧
        (e.ix, e.iy, e.iz) = s.banks.grid.coords c.best.voxel ∧ e.n = c.best.contributors.length ∧
        e.weightSum = (c.best.contributors.map fun x => x.2).sum ∧ e.k = c.best.k ∧ e.openCount = c.openCount ∧
        e.injection = s.alert.injection ∧ (e.rehearsal = true ↔ s.param .rehearsal = 1) ∧
        e.picks = s.picks c.best ∧
        ((c.best.contributors.map fun x => x.1).Nodup → e.picks.length ≤ s.param .pickCap) ∧
        (s.param .rehearsal = 1 → (s.closeEvent c tr).alert = s.alert))) ∧
  (∀ (s : State) (e : EventRecord),
    (e.rehearsal = true → s.handOn e = (s.offer (.event e.sequence e.level)).queueRecord e) ∧
    (e.rehearsal = false →
      s.handOn e = ((s.offer (.event e.sequence e.level)).queueRecord e).takeLevel e.level e.sequence)) ∧
  (∀ (s : State) (e : EventRecord) (m : Option Summary),
    m = some ⟨e.sequence, e.level, e.zone, e.bBest⟩ →
    (s.queue.records.length < 32 →
      s.queueRecord e =
        ({ s with queue := { s.queue with records := s.queue.records ++ [e], last := m } } : State).raiseBoth .event) ∧
    (∀ (pre post : List EventRecord) (old : EventRecord) (t : State), 32 ≤ s.queue.records.length →
      s.queue.records = pre ++ old :: post → old.level.code < e.level.code →
      (∀ x ∈ pre, old.level.code < x.level.code) → (∀ x ∈ post, old.level.code ≤ x.level.code) →
      t = ({ s with queue := { s.queue with records := pre ++ post } } : State).offer (.evicted old.sequence) →
      s.queueRecord e =
        ({ t with queue := { s.queue with records := pre ++ post ++ [e], last := m } } : State).raiseBoth .event) ∧
    (32 ≤ s.queue.records.length → (∀ x ∈ s.queue.records, e.level.code ≤ x.level.code) →
      s.queueRecord e = s.offer (.dropped e.sequence))) ∧
  (∀ (s : State) (l : EventLevel) (q : Nat),
    (s.alert.take (s.param .amberDwell * 60000) l q = none → s.takeLevel l q = s) ∧
    (∀ a, s.alert.take (s.param .amberDwell * 60000) l q = some a →
      s.takeLevel l q = (s.setAlert a).raiseBoth .alert)) ∧
  (∀ (s : State) (best : Peak) (j : Fin 256) (a r : Nat),
    a = best.tick + s.banks.active.delay best.voxel j.val → r = s.param .pickRadius →
    (∀ (t : Nat) (x : Slot), a ≤ t + r → t ≤ a + r → Ring.at (s.chan j).ring t = some x →
      (∀ (u : Nat) (y : Slot), a ≤ u + r → u ≤ a + r → Ring.at (s.chan j).ring u = some y →
        y.c < x.c ∨ (y.c = x.c ∧ t ≤ u)) →
      (s.param .pickLevel ≤ x.c → s.pick best j = some ⟨j, (t : Int) - a, x.c,
        if (x.sign = .pos ↔ (s.chan j).cfg.polarity = .positive) then .up else .down⟩) ∧
      (x.c < s.param .pickLevel → s.pick best j = none)) ∧
    ((∀ u, a ≤ u + r → u ≤ a + r → Ring.at (s.chan j).ring u = none) → s.pick best j = none)) ∧
  (∀ (s : State) (best : Peak) (l : List Pick), l = best.contributors.filterMap (fun e => s.pick best e.1) →
    s.picks best = l.filter fun p => decide
      ((l.countP fun q => decide (p.c < q.c ∨ (q.c = p.c ∧ q.channel < p.channel))) < s.param .pickCap)) ∧
  (∀ (s : State) (v ix iy iz : Nat) (hit : Fin 8 → Prop), ix < s.banks.grid.nx → iy < s.banks.grid.ny →
    v = ix + s.banks.grid.nx * (iy + s.banks.grid.ny * iz) →
    hit = (fun i => (vget s.zones i).enabled = true ∧ (vget s.zones i).ix0 ≤ ix ∧ ix ≤ (vget s.zones i).ix1 ∧
      (vget s.zones i).iy0 ≤ iy ∧ iy ≤ (vget s.zones i).iy1 ∧ (vget s.zones i).iz0 ≤ iz ∧ iz ≤ (vget s.zones i).iz1) →
    s.banks.grid.coords v = (ix, iy, iz) ∧
    (∀ i, hit i → (∀ k, k < i → ¬hit k) → s.zoneOf v = i.val) ∧
    ((∀ i, ¬hit i) → s.zoneOf v = 8)) ∧
  (∀ (s : State) (i : Fin 8), s.zone i.val = vget s.zones i ∧
    s.zone 8 = ⟨true, 0, 31, 0, 31, 0, 31, false, ⟨s.param .amberShut, s.param .redShut⟩,
      ⟨s.param .amberCirc, s.param .redCirc⟩, ⟨s.param .amberStim, s.param .redStim⟩⟩) ∧
  (∀ (z : ZoneRule) (th : Threshold) (b : Nat),
    (z.thresholds .shutIn = z.shutIn ∧ z.thresholds .circulating = z.circulating ∧
      z.thresholds .stimulating = z.stimulating) ∧
    (th.red ≤ b → th.level b = .red) ∧ (b < th.red → th.amber ≤ b → th.level b = .amber) ∧
    (b < th.red → b < th.amber → th.level b = .none))

/-! ## Spelling (12) -/

/-- The part's own framing of a body, given to a hunting receiver, is one frame start and that body, for every
body the port takes: the frame's encoder and its decoder agree.
R46: what a receiver makes of the bytes of its line. In a frame it waits for the length, for the body and for the CRC; a
length refused and a CRC that fails send it searching again from the byte after the frame's 0xB6, a good frame from the byte
after its end. Out of a frame it takes the first sync pair as a frame start, and keeps a last 0xB6 in mind.
Section 12.2: the link frame, its CRC, big-endian numbers, and the bytes of values that may be absent.
R198: signed fields in two's complement. -/
def Obligations.FramesDecode : Prop :=
  (∀ (max : Nat) (body : List Byte), 1 ≤ body.length → body.length ≤ max → max ≤ 65535 →
     feed max (.hunting false) (linkFrame body) = ([.start, .good body], .hunting false)) ∧
  (∀ (max : Nat) (got bytes buf : List Byte) (len : Nat), buf = got ++ bytes → len = field buf 0 2 →
    (buf.length < 2 → feed max (.receiving got) bytes = ([], .receiving buf)) ∧
    (2 ≤ buf.length → len = 0 ∨ max < len → ∀ r, r = feed max (.hunting false) (0x49 :: buf) →
      feed max (.receiving got) bytes = (.badLength len :: r.1, r.2)) ∧
    (2 ≤ buf.length → 1 ≤ len → len ≤ max → buf.length < len + 4 →
      feed max (.receiving got) bytes = ([], .receiving buf)) ∧
    (1 ≤ len → len ≤ max → len + 4 ≤ buf.length →
      (crc (buf.take (len + 2)) = BitVec.ofNat 16 (field buf (len + 2) 2) →
        ∀ r, r = feed max (.hunting false) (buf.drop (len + 4)) →
        feed max (.receiving got) bytes = (.good ((buf.drop 2).take len) :: r.1, r.2)) ∧
      (crc (buf.take (len + 2)) ≠ BitVec.ofNat 16 (field buf (len + 2) 2) →
        ∀ r, r = feed max (.hunting false) (0x49 :: buf) →
        feed max (.receiving got) bytes = (.badCrc len ((buf.drop 2).take len) :: r.1, r.2)))) ∧
  (∀ (max : Nat) (half : Bool) (bytes buf : List Byte), buf = (if half then 0xB6 :: bytes else bytes) →
    (∀ pre rest, buf = pre ++ 0xB6 :: 0x49 :: rest →
      (∀ i : Nat, i < pre.length → ¬(buf[i]? = some 0xB6 ∧ buf[i + 1]? = some 0x49)) →
      ∀ r, r = feed max (.receiving []) rest → feed max (.hunting half) bytes = (.start :: r.1, r.2)) ∧
    ((∀ i : Nat, ¬(buf[i]? = some 0xB6 ∧ buf[i + 1]? = some 0x49)) →
      feed max (.hunting half) bytes = ([], .hunting (buf.getLast? == some 0xB6)))) ∧
  (∀ (bs : List Byte) (b : Byte) (n v : Nat),
    linkFrame bs = [0xB6, 0x49] ++ bytesOf 2 bs.length ++ bs ++ bytesOf 2 (crc (bytesOf 2 bs.length ++ bs)).toNat ∧
    crc [] = 0xFFFF#16 ∧
    crc (bs ++ [b]) = (fun r : BitVec 16 => if r.msb then (r <<< 1) ^^^ 0x1021#16 else r <<< 1)^[8]
      (crc bs ^^^ (b.setWidth 16 <<< 8)) ∧
    natOf [] = 0 ∧ natOf (bs ++ [b]) = natOf bs * 256 + b.toNat ∧
    bytesOf 0 v = [] ∧ bytesOf (n + 1) v = bytesOf n (v / 256) ++ [BitVec.ofNat 8 v] ∧ natOf (bytesOf n v) = v % 256 ^ n ∧
    sixOf none = List.replicate 6 0xFF ∧ sixOf (some v) = bytesOf 6 v ∧
    presentOf n none = [0] ++ bytesOf n 0 ∧ presentOf n (some v) = [1] ++ bytesOf n v ∧
    flagByte false = [0] ∧ flagByte true = [1]) ∧
  (∀ (bs : List Byte) (off n : Nat) (v : Int), 1 ≤ n → off + n ≤ bs.length →
    (2 * field bs off n < 256 ^ n → fieldInt bs off n = field bs off n) ∧
    (256 ^ n ≤ 2 * field bs off n → fieldInt bs off n = (field bs off n : Int) - 256 ^ n) ∧
    field bs off n = natOf ((bs.drop off).take n) ∧
    bytesOfInt n v = bytesOf n (v % 256 ^ n).toNat)

/-! ## What every step keeps -/

/-- R160: each line follows the alert level after every step. -/
def Obligations.LinesFollowTheLevel : Prop :=
  ∀ s t : State, LinesFollowLevel s → step s = .next t → LinesFollowLevel t

/-- R149, R140: the event queue's bound and the rise of its sequences after every step.
R166, R168: the journal's bounds and the rise of its serials after every step. -/
def Obligations.EventsAndJournalKeepTheirLaws : Prop :=
  (∀ s t : State, QueueOk s.queue → step s = .next t → QueueOk t.queue) ∧
  (∀ s t : State, JournalOk s.journal → step s = .next t → JournalOk t.journal)

/-- R179, R185: the bounds of both control ports' places and of their pending sets after every step. -/
def Obligations.ControlPortsKeepTheirLaw : Prop :=
  ∀ s t : State, (∀ c, CtlOk c (s.ctl c)) → step s = .next t → ∀ c, CtlOk c (t.ctl c)

/-- R1: after every step a channel has a conditioning record exactly in SETTLING, LIVE, LAGGING and MUTED, and its ring is
in canonical form. -/
def Obligations.ChannelsKeepTheirLaw : Prop := ∀ s t : State, ChannelsOk s → step s = .next t → ChannelsOk t

/-- R190, R148, R138: every parameter in its range and every zone rule in order after every step.
R54: after every step the runs of any two valid hub map entries share no channel. -/
def Obligations.TablesStayInRange : Prop :=
  (∀ s t : State, ParamsOk s.params → ZonesOk s.zones → step s = .next t → ParamsOk t.params ∧ ZonesOk t.zones) ∧
  (∀ s t : State, HubsOk s.hubs → step s = .next t → HubsOk t.hubs)

/-- R124: the trigger record's law after every step.
R85: while the array is RUNNING there is always an active bank, and the bank controller keeps its law. -/
def Obligations.TriggerAndBankKeepTheirLaws : Prop :=
  (∀ s t : State, TriggerOk s.trig → step s = .next t → TriggerOk t.trig) ∧
  (∀ s t : State, BanksOk s.banks → RunningHasBank s → step s = .next t → BanksOk t.banks ∧ RunningHasBank t)

/-- R100, R101: the scheduler record keeps the shape of its state at every step, and while the array stays RUNNING the
front never goes back. -/
def Obligations.FrontNeverGoesBack : Prop :=
  ∀ s t : State, SchedOk s → step s = .next t → SchedOk t ∧ (s.array = .running → t.array = .running → FrontNotBack s t)

/-- The reset state satisfies every law that the steps keep. -/
def Obligations.ResetKeepsEveryLaw : Prop :=
  LinesFollowLevel State.reset ∧ JournalOk State.reset.journal ∧ QueueOk State.reset.queue ∧
  (∀ c, CtlOk c (State.reset.ctl c)) ∧ ChannelsOk State.reset ∧ ParamsOk State.reset.params ∧
  ZonesOk State.reset.zones ∧ HubsOk State.reset.hubs ∧ TriggerOk State.reset.trig ∧ BanksOk State.reset.banks ∧
  RunningHasBank State.reset ∧ SchedOk State.reset
end

