-- ==== Sys2Proof/Laws/Bytes.lean ====
section
/-!
SUPPORT. Fields in bytes: lengths, and that a field reads the number it was written from, and the bits of a set (12, R198).
-/

namespace Sys2Proof.Machine

@[simp] theorem length_bytesOf (n v : Nat) : (bytesOf n v).length = n := by
  induction n generalizing v with
  | zero => rfl
  | succ n ih => simp [bytesOf, ih]

theorem natOf_append_byte (bs : List Byte) (b : Byte) : natOf (bs ++ [b]) = natOf bs * 256 + b.toNat := by
  simp [natOf]

@[simp] theorem natOf_bytesOf (n v : Nat) : natOf (bytesOf n v) = v % 256 ^ n := by
  induction n generalizing v with
  | zero => simp [bytesOf, natOf, Nat.mod_one]
  | succ n ih =>
    rw [bytesOf, natOf_append_byte, ih, BitVec.toNat_ofNat]
    have h : v % 256 ^ (n + 1) = v % 256 + 256 * (v / 256 % 256 ^ n) := by
      rw [Nat.pow_succ', Nat.mod_mul]
    rw [h]
    omega

theorem natOf_lt (bs : List Byte) : natOf bs < 256 ^ bs.length := by
  induction bs using List.reverseRecOn with
  | nil => simp [natOf]
  | append_singleton bs b ih =>
    rw [natOf_append_byte, List.length_append, List.length_singleton, Nat.pow_succ]
    have := b.isLt
    omega

/-- A field that spans a whole part of a payload reads that part. -/
theorem field_append (pre mid post : List Byte) :
    field (pre ++ (mid ++ post)) pre.length mid.length = natOf mid := by
  simp [field, slice]

theorem field_lt (bs : List Byte) (off n : Nat) : field bs off n < 256 ^ n := by
  refine lt_of_lt_of_le (natOf_lt _) (Nat.pow_le_pow_right (by decide) ?_)
  simp [slice]

/-! ## Sets (12.1) -/

theorem testBit_maskFold {α : Type} (bit : α → Nat) (l : List α) (v i : Nat) :
    (l.foldl (fun v k => v ||| 2 ^ bit k) v).testBit i = (v.testBit i || l.any fun k => bit k == i) := by
  induction l generalizing v with
  | nil => simp
  | cons a l ih =>
    rw [List.foldl_cons, ih, Nat.testBit_or, Nat.testBit_two_pow, List.any_cons, Bool.or_assoc]; rfl

/-- The bits of a set are those of its members. -/
theorem testBit_maskOf {α : Type} (bit : α → Nat) (l : List α) (i : Nat) :
    (maskOf bit l).testBit i = l.any fun k => bit k == i := by
  rw [maskOf, testBit_maskFold, Nat.zero_testBit, Bool.false_or]

/-- A set whose members have bits below `n` takes `n` bits. -/
theorem maskOf_lt {α : Type} (bit : α → Nat) (l : List α) (n : Nat) (h : ∀ k, bit k < n) : maskOf bit l < 2 ^ n := by
  apply Nat.lt_pow_two_of_testBit
  intro i hi
  rw [testBit_maskOf, List.any_eq_false]
  intro k _
  have := h k
  simp; omega

end Sys2Proof.Machine
end

