-- ==== Sys2Proof/Laws/Order.lean ====
section
/-!
SUPPORT. What the repetitions of the model keep: folds, free orders, the run of blind windows, and the delivery of samples.
-/

namespace Sys2Proof.Machine

theorem foldl_keeps {α β : Type} {P : β → Prop} {f : β → α → β} (l : List α) (h : ∀ s, ∀ a ∈ l, P s → P (f s a)) :
    ∀ s, P s → P (l.foldl f s) := by
  induction l with
  | nil => exact fun _ hs => hs
  | cons a l ih =>
    intro s hs
    exact ih (fun s b hb => h s b (List.mem_cons_of_mem _ hb)) _ (h s a List.mem_cons_self hs)

theorem choose_lt (tape : List Nat) {n : Nat} (h : 0 < n) : (choose tape n).1 < n := by
  unfold choose
  split
  · exact h
  · exact Nat.mod_lt _ h

theorem shuffle_perm {α : Type} (fuel : Nat) (tape : List Nat) (l : List α) : (shuffle fuel tape l).1.Perm l := by
  induction fuel generalizing tape l with
  | zero => exact .refl _
  | succ n ih =>
    match l with
    | [] => exact .refl _
    | [x] => exact .refl _
    | x :: y :: r =>
      have hlt : (choose tape (r.length + 2)).1 < (x :: y :: r).length := choose_lt _ (by omega)
      simp only [shuffle]
      rw [List.getD_eq_getElem _ _ hlt]
      exact ((ih _ _).cons _).trans (List.getElem_cons_eraseIdx_perm hlt)

/-- A table as the list of its entries. -/
theorem toList_eq_map {α : Type} {n : Nat} (v : Vector α n) : v.toArray.toList = (List.finRange n).map (vget v) := by
  apply List.ext_getElem
  · simp
  · intro i h1 h2
    simp [vget]

/-- A table enumerated: each entry behind its number. -/
theorem enumFin_eq_map {α : Type} {n : Nat} (v : Vector α n) : enumFin v = (List.finRange n).map fun i => (i, vget v i) := by
  apply List.ext_getElem
  · simp [enumFin]
  · intro i h1 h2
    simp [enumFin, vget]

/-- The first index that passes a test is the one a search finds. -/
theorem find_finRange_first {n : Nat} {p : Fin n → Bool} {i : Fin n} (hi : p i = true) (hlt : ∀ k, k < i → p k = false) :
    (List.finRange n).find? p = some i := by
  obtain ⟨before, after, hl⟩ := List.append_of_mem (List.mem_finRange i)
  rw [List.find?_eq_some_iff_append]
  refine ⟨hi, before, after, hl, fun a ha => ?_⟩
  have hp := List.pairwise_lt_finRange n
  rw [hl, List.pairwise_append] at hp
  simpa using hlt a (hp.2.2 a ha i (by simp))

theorem State.each_keeps {α : Type} {P : State → Prop} {f : State → α → State} (l : List α)
    (tape : ∀ s o, P s → P { s with order := o }) (h : ∀ s, ∀ a ∈ l, P s → P (f s a)) (s : State) (hs : P s) :
    P (s.each l f) := by
  unfold State.each
  exact foldl_keeps _ (fun s a ha => h s a ((shuffle_perm _ _ _).mem_iff.mp ha)) _ (tape _ _ hs)

theorem runBlind_keeps {P : State → Prop}
    (h : ∀ s w, s.blindWindow = some w → P s → P (s.complete w (s.windowResult w)).dueStep) (n : Nat) (s : State)
    (hs : P s) : P (runBlind n s) := by
  induction n generalizing s with
  | zero => exact hs
  | succ n ih =>
    unfold runBlind
    split
    · rename_i w hw
      exact ih _ (h s w hw hs)
    · exact hs

theorem deliverLoop_keeps {P : State → Prop} (pk : Packet) (body : List Byte)
    (tape : ∀ s o, P s → P { s with order := o })
    (h : ∀ s j asn x, P s → P (s.sampleIn pk j asn x)) (n : Nat) (work : List (Fin 256 × Nat)) (s : State)
    (hs : P s) : P (deliverLoop pk body n work s) := by
  induction n generalizing work s with
  | zero => exact hs
  | succ n ih =>
    unfold deliverLoop
    split
    · exact hs
    · exact ih _ _ (h _ _ _ _ (tape _ _ hs))

end Sys2Proof.Machine
end

