-- ==== Sys2Proof/Laws/State.lean ====
section
/-!
SUPPORT. One lemma per field of State per named update: what the update leaves, and what it sets.
-/

namespace Sys2Proof.Machine

/-! ## State.setChan -/

@[simp] theorem State.setChan_pending (s : State) (j : Fin 256) (x : Channel) :
    (s.setChan j x).pending = s.pending := rfl

@[simp] theorem State.setChan_order (s : State) (j : Fin 256) (x : Channel) :
    (s.setChan j x).order = s.order := rfl

@[simp] theorem State.setChan_resetAsserted (s : State) (j : Fin 256) (x : Channel) :
    (s.setChan j x).resetAsserted = s.resetAsserted := rfl

@[simp] theorem State.setChan_amberLine (s : State) (j : Fin 256) (x : Channel) :
    (s.setChan j x).amberLine = s.amberLine := rfl

@[simp] theorem State.setChan_redLine (s : State) (j : Fin 256) (x : Channel) :
    (s.setChan j x).redLine = s.redLine := rfl

@[simp] theorem State.setChan_array (s : State) (j : Fin 256) (x : Channel) :
    (s.setChan j x).array = s.array := rfl

@[simp] theorem State.setChan_params (s : State) (j : Fin 256) (x : Channel) :
    (s.setChan j x).params = s.params := rfl

@[simp] theorem State.setChan_ports (s : State) (j : Fin 256) (x : Channel) :
    (s.setChan j x).ports = s.ports := rfl

@[simp] theorem State.setChan_hubs (s : State) (j : Fin 256) (x : Channel) :
    (s.setChan j x).hubs = s.hubs := rfl

@[simp] theorem State.setChan_banks (s : State) (j : Fin 256) (x : Channel) :
    (s.setChan j x).banks = s.banks := rfl

@[simp] theorem State.setChan_sched (s : State) (j : Fin 256) (x : Channel) :
    (s.setChan j x).sched = s.sched := rfl

@[simp] theorem State.setChan_trig (s : State) (j : Fin 256) (x : Channel) :
    (s.setChan j x).trig = s.trig := rfl

@[simp] theorem State.setChan_zones (s : State) (j : Fin 256) (x : Channel) :
    (s.setChan j x).zones = s.zones := rfl

@[simp] theorem State.setChan_queue (s : State) (j : Fin 256) (x : Channel) :
    (s.setChan j x).queue = s.queue := rfl

@[simp] theorem State.setChan_alert (s : State) (j : Fin 256) (x : Channel) :
    (s.setChan j x).alert = s.alert := rfl

@[simp] theorem State.setChan_journal (s : State) (j : Fin 256) (x : Channel) :
    (s.setChan j x).journal = s.journal := rfl

@[simp] theorem State.setChan_survey (s : State) (j : Fin 256) (x : Channel) :
    (s.setChan j x).survey = s.survey := rfl

@[simp] theorem State.setChan_plant (s : State) (j : Fin 256) (x : Channel) :
    (s.setChan j x).plant = s.plant := rfl

@[simp] theorem State.setChan_port (s : State) (j : Fin 256) (x : Channel) (q : FPort) :
    (s.setChan j x).port q = s.port q := by simp [State.port]

@[simp] theorem State.setChan_hub (s : State) (j : Fin 256) (x : Channel) (g : Fin 16) :
    (s.setChan j x).hub g = s.hub g := by simp [State.hub]

@[simp] theorem State.setChan_param (s : State) (j : Fin 256) (x : Channel) (i : ParamId) :
    (s.setChan j x).param i = s.param i := by simp [State.param]

@[simp] theorem State.setChan_ctl (s : State) (j : Fin 256) (x : Channel) (d : CPort) :
    (s.setChan j x).ctl d = s.ctl d := by cases d <;> simp [State.ctl]

@[simp] theorem State.setChan_chan_self (s : State) (j : Fin 256) (x : Channel) :
    (s.setChan j x).chan j = x := by simp [State.chan, State.setChan]

theorem State.setChan_chan_ne (s : State) {i j : Fin 256} (x : Channel) (h : i ≠ j) :
    (s.setChan i x).chan j = s.chan j := by simp [State.chan, State.setChan, vget_vset_ne _ _ h]

theorem State.setChan_chan (s : State) (i j : Fin 256) (x : Channel) :
    (s.setChan i x).chan j = if i = j then x else s.chan j := by simp [State.chan, State.setChan, vget_vset]

/-! ## State.setPort -/

@[simp] theorem State.setPort_pending (s : State) (p : FPort) (x : FieldPort) :
    (s.setPort p x).pending = s.pending := rfl

@[simp] theorem State.setPort_order (s : State) (p : FPort) (x : FieldPort) :
    (s.setPort p x).order = s.order := rfl

@[simp] theorem State.setPort_resetAsserted (s : State) (p : FPort) (x : FieldPort) :
    (s.setPort p x).resetAsserted = s.resetAsserted := rfl

@[simp] theorem State.setPort_amberLine (s : State) (p : FPort) (x : FieldPort) :
    (s.setPort p x).amberLine = s.amberLine := rfl

@[simp] theorem State.setPort_redLine (s : State) (p : FPort) (x : FieldPort) :
    (s.setPort p x).redLine = s.redLine := rfl

@[simp] theorem State.setPort_array (s : State) (p : FPort) (x : FieldPort) :
    (s.setPort p x).array = s.array := rfl

@[simp] theorem State.setPort_params (s : State) (p : FPort) (x : FieldPort) :
    (s.setPort p x).params = s.params := rfl

@[simp] theorem State.setPort_channels (s : State) (p : FPort) (x : FieldPort) :
    (s.setPort p x).channels = s.channels := rfl

@[simp] theorem State.setPort_hubs (s : State) (p : FPort) (x : FieldPort) :
    (s.setPort p x).hubs = s.hubs := rfl

@[simp] theorem State.setPort_banks (s : State) (p : FPort) (x : FieldPort) :
    (s.setPort p x).banks = s.banks := rfl

@[simp] theorem State.setPort_sched (s : State) (p : FPort) (x : FieldPort) :
    (s.setPort p x).sched = s.sched := rfl

@[simp] theorem State.setPort_trig (s : State) (p : FPort) (x : FieldPort) :
    (s.setPort p x).trig = s.trig := rfl

@[simp] theorem State.setPort_zones (s : State) (p : FPort) (x : FieldPort) :
    (s.setPort p x).zones = s.zones := rfl

@[simp] theorem State.setPort_queue (s : State) (p : FPort) (x : FieldPort) :
    (s.setPort p x).queue = s.queue := rfl

@[simp] theorem State.setPort_alert (s : State) (p : FPort) (x : FieldPort) :
    (s.setPort p x).alert = s.alert := rfl

@[simp] theorem State.setPort_journal (s : State) (p : FPort) (x : FieldPort) :
    (s.setPort p x).journal = s.journal := rfl

@[simp] theorem State.setPort_survey (s : State) (p : FPort) (x : FieldPort) :
    (s.setPort p x).survey = s.survey := rfl

@[simp] theorem State.setPort_plant (s : State) (p : FPort) (x : FieldPort) :
    (s.setPort p x).plant = s.plant := rfl

@[simp] theorem State.setPort_chan (s : State) (p : FPort) (x : FieldPort) (i : Fin 256) :
    (s.setPort p x).chan i = s.chan i := by simp [State.chan]

@[simp] theorem State.setPort_hub (s : State) (p : FPort) (x : FieldPort) (g : Fin 16) :
    (s.setPort p x).hub g = s.hub g := by simp [State.hub]

@[simp] theorem State.setPort_param (s : State) (p : FPort) (x : FieldPort) (i : ParamId) :
    (s.setPort p x).param i = s.param i := by simp [State.param]

@[simp] theorem State.setPort_ctl (s : State) (p : FPort) (x : FieldPort) (d : CPort) :
    (s.setPort p x).ctl d = s.ctl d := by cases d <;> simp [State.ctl]

@[simp] theorem State.setPort_port_self (s : State) (p : FPort) (x : FieldPort) :
    (s.setPort p x).port p = x := by simp [State.port, State.setPort]

theorem State.setPort_port (s : State) (p q : FPort) (x : FieldPort) :
    (s.setPort p x).port q = if p = q then x else s.port q := by simp [State.port, State.setPort, vget_vset]

/-! ## State.setHub -/

@[simp] theorem State.setHub_pending (s : State) (h : Fin 16) (x : HubEntry) :
    (s.setHub h x).pending = s.pending := rfl

@[simp] theorem State.setHub_order (s : State) (h : Fin 16) (x : HubEntry) :
    (s.setHub h x).order = s.order := rfl

@[simp] theorem State.setHub_resetAsserted (s : State) (h : Fin 16) (x : HubEntry) :
    (s.setHub h x).resetAsserted = s.resetAsserted := rfl

@[simp] theorem State.setHub_amberLine (s : State) (h : Fin 16) (x : HubEntry) :
    (s.setHub h x).amberLine = s.amberLine := rfl

@[simp] theorem State.setHub_redLine (s : State) (h : Fin 16) (x : HubEntry) :
    (s.setHub h x).redLine = s.redLine := rfl

@[simp] theorem State.setHub_array (s : State) (h : Fin 16) (x : HubEntry) :
    (s.setHub h x).array = s.array := rfl

@[simp] theorem State.setHub_params (s : State) (h : Fin 16) (x : HubEntry) :
    (s.setHub h x).params = s.params := rfl

@[simp] theorem State.setHub_channels (s : State) (h : Fin 16) (x : HubEntry) :
    (s.setHub h x).channels = s.channels := rfl

@[simp] theorem State.setHub_ports (s : State) (h : Fin 16) (x : HubEntry) :
    (s.setHub h x).ports = s.ports := rfl

@[simp] theorem State.setHub_banks (s : State) (h : Fin 16) (x : HubEntry) :
    (s.setHub h x).banks = s.banks := rfl

@[simp] theorem State.setHub_sched (s : State) (h : Fin 16) (x : HubEntry) :
    (s.setHub h x).sched = s.sched := rfl

@[simp] theorem State.setHub_trig (s : State) (h : Fin 16) (x : HubEntry) :
    (s.setHub h x).trig = s.trig := rfl

@[simp] theorem State.setHub_zones (s : State) (h : Fin 16) (x : HubEntry) :
    (s.setHub h x).zones = s.zones := rfl

@[simp] theorem State.setHub_queue (s : State) (h : Fin 16) (x : HubEntry) :
    (s.setHub h x).queue = s.queue := rfl

@[simp] theorem State.setHub_alert (s : State) (h : Fin 16) (x : HubEntry) :
    (s.setHub h x).alert = s.alert := rfl

@[simp] theorem State.setHub_journal (s : State) (h : Fin 16) (x : HubEntry) :
    (s.setHub h x).journal = s.journal := rfl

@[simp] theorem State.setHub_survey (s : State) (h : Fin 16) (x : HubEntry) :
    (s.setHub h x).survey = s.survey := rfl

@[simp] theorem State.setHub_plant (s : State) (h : Fin 16) (x : HubEntry) :
    (s.setHub h x).plant = s.plant := rfl

@[simp] theorem State.setHub_chan (s : State) (h : Fin 16) (x : HubEntry) (i : Fin 256) :
    (s.setHub h x).chan i = s.chan i := by simp [State.chan]

@[simp] theorem State.setHub_port (s : State) (h : Fin 16) (x : HubEntry) (q : FPort) :
    (s.setHub h x).port q = s.port q := by simp [State.port]

@[simp] theorem State.setHub_param (s : State) (h : Fin 16) (x : HubEntry) (i : ParamId) :
    (s.setHub h x).param i = s.param i := by simp [State.param]

@[simp] theorem State.setHub_ctl (s : State) (h : Fin 16) (x : HubEntry) (d : CPort) :
    (s.setHub h x).ctl d = s.ctl d := by cases d <;> simp [State.ctl]

@[simp] theorem State.setHub_hub_self (s : State) (h : Fin 16) (x : HubEntry) :
    (s.setHub h x).hub h = x := by simp [State.hub, State.setHub]

theorem State.setHub_hub (s : State) (g h : Fin 16) (x : HubEntry) :
    (s.setHub g x).hub h = if g = h then x else s.hub h := by simp [State.hub, State.setHub, vget_vset]

/-! ## State.setCtl -/

@[simp] theorem State.setCtl_pending (s : State) (c : CPort) (x : CtlPort) :
    (s.setCtl c x).pending = s.pending := by cases c <;> rfl

@[simp] theorem State.setCtl_order (s : State) (c : CPort) (x : CtlPort) :
    (s.setCtl c x).order = s.order := by cases c <;> rfl

@[simp] theorem State.setCtl_resetAsserted (s : State) (c : CPort) (x : CtlPort) :
    (s.setCtl c x).resetAsserted = s.resetAsserted := by cases c <;> rfl

@[simp] theorem State.setCtl_amberLine (s : State) (c : CPort) (x : CtlPort) :
    (s.setCtl c x).amberLine = s.amberLine := by cases c <;> rfl

@[simp] theorem State.setCtl_redLine (s : State) (c : CPort) (x : CtlPort) :
    (s.setCtl c x).redLine = s.redLine := by cases c <;> rfl

@[simp] theorem State.setCtl_array (s : State) (c : CPort) (x : CtlPort) :
    (s.setCtl c x).array = s.array := by cases c <;> rfl

@[simp] theorem State.setCtl_params (s : State) (c : CPort) (x : CtlPort) :
    (s.setCtl c x).params = s.params := by cases c <;> rfl

@[simp] theorem State.setCtl_channels (s : State) (c : CPort) (x : CtlPort) :
    (s.setCtl c x).channels = s.channels := by cases c <;> rfl

@[simp] theorem State.setCtl_ports (s : State) (c : CPort) (x : CtlPort) :
    (s.setCtl c x).ports = s.ports := by cases c <;> rfl

@[simp] theorem State.setCtl_hubs (s : State) (c : CPort) (x : CtlPort) :
    (s.setCtl c x).hubs = s.hubs := by cases c <;> rfl

@[simp] theorem State.setCtl_banks (s : State) (c : CPort) (x : CtlPort) :
    (s.setCtl c x).banks = s.banks := by cases c <;> rfl

@[simp] theorem State.setCtl_sched (s : State) (c : CPort) (x : CtlPort) :
    (s.setCtl c x).sched = s.sched := by cases c <;> rfl

@[simp] theorem State.setCtl_trig (s : State) (c : CPort) (x : CtlPort) :
    (s.setCtl c x).trig = s.trig := by cases c <;> rfl

@[simp] theorem State.setCtl_zones (s : State) (c : CPort) (x : CtlPort) :
    (s.setCtl c x).zones = s.zones := by cases c <;> rfl

@[simp] theorem State.setCtl_queue (s : State) (c : CPort) (x : CtlPort) :
    (s.setCtl c x).queue = s.queue := by cases c <;> rfl

@[simp] theorem State.setCtl_alert (s : State) (c : CPort) (x : CtlPort) :
    (s.setCtl c x).alert = s.alert := by cases c <;> rfl

@[simp] theorem State.setCtl_journal (s : State) (c : CPort) (x : CtlPort) :
    (s.setCtl c x).journal = s.journal := by cases c <;> rfl

@[simp] theorem State.setCtl_chan (s : State) (c : CPort) (x : CtlPort) (i : Fin 256) :
    (s.setCtl c x).chan i = s.chan i := by simp [State.chan]

@[simp] theorem State.setCtl_port (s : State) (c : CPort) (x : CtlPort) (q : FPort) :
    (s.setCtl c x).port q = s.port q := by simp [State.port]

@[simp] theorem State.setCtl_hub (s : State) (c : CPort) (x : CtlPort) (g : Fin 16) :
    (s.setCtl c x).hub g = s.hub g := by simp [State.hub]

@[simp] theorem State.setCtl_param (s : State) (c : CPort) (x : CtlPort) (i : ParamId) :
    (s.setCtl c x).param i = s.param i := by simp [State.param]

@[simp] theorem State.setCtl_ctl_self (s : State) (c : CPort) (x : CtlPort) : (s.setCtl c x).ctl c = x := by
  cases c <;> rfl

theorem State.setCtl_ctl_ne (s : State) {c d : CPort} (x : CtlPort) (h : c ≠ d) : (s.setCtl c x).ctl d = s.ctl d := by
  cases c <;> cases d <;> first | rfl | exact absurd rfl h

theorem State.setCtl_ctl (s : State) (c d : CPort) (x : CtlPort) :
    (s.setCtl c x).ctl d = if c = d then x else s.ctl d := by cases c <;> cases d <;> rfl

/-! ## State.raise -/

@[simp] theorem State.raise_pending (s : State) (c : CPort) (k : NoticeKind) :
    (s.raise c k).pending = s.pending := by simp [State.raise]

@[simp] theorem State.raise_order (s : State) (c : CPort) (k : NoticeKind) :
    (s.raise c k).order = s.order := by simp [State.raise]

@[simp] theorem State.raise_resetAsserted (s : State) (c : CPort) (k : NoticeKind) :
    (s.raise c k).resetAsserted = s.resetAsserted := by simp [State.raise]

@[simp] theorem State.raise_amberLine (s : State) (c : CPort) (k : NoticeKind) :
    (s.raise c k).amberLine = s.amberLine := by simp [State.raise]

@[simp] theorem State.raise_redLine (s : State) (c : CPort) (k : NoticeKind) :
    (s.raise c k).redLine = s.redLine := by simp [State.raise]

@[simp] theorem State.raise_array (s : State) (c : CPort) (k : NoticeKind) :
    (s.raise c k).array = s.array := by simp [State.raise]

@[simp] theorem State.raise_params (s : State) (c : CPort) (k : NoticeKind) :
    (s.raise c k).params = s.params := by simp [State.raise]

@[simp] theorem State.raise_channels (s : State) (c : CPort) (k : NoticeKind) :
    (s.raise c k).channels = s.channels := by simp [State.raise]

@[simp] theorem State.raise_ports (s : State) (c : CPort) (k : NoticeKind) :
    (s.raise c k).ports = s.ports := by simp [State.raise]

@[simp] theorem State.raise_hubs (s : State) (c : CPort) (k : NoticeKind) :
    (s.raise c k).hubs = s.hubs := by simp [State.raise]

@[simp] theorem State.raise_banks (s : State) (c : CPort) (k : NoticeKind) :
    (s.raise c k).banks = s.banks := by simp [State.raise]

@[simp] theorem State.raise_sched (s : State) (c : CPort) (k : NoticeKind) :
    (s.raise c k).sched = s.sched := by simp [State.raise]

@[simp] theorem State.raise_trig (s : State) (c : CPort) (k : NoticeKind) :
    (s.raise c k).trig = s.trig := by simp [State.raise]

@[simp] theorem State.raise_zones (s : State) (c : CPort) (k : NoticeKind) :
    (s.raise c k).zones = s.zones := by simp [State.raise]

@[simp] theorem State.raise_queue (s : State) (c : CPort) (k : NoticeKind) :
    (s.raise c k).queue = s.queue := by simp [State.raise]

@[simp] theorem State.raise_alert (s : State) (c : CPort) (k : NoticeKind) :
    (s.raise c k).alert = s.alert := by simp [State.raise]

@[simp] theorem State.raise_journal (s : State) (c : CPort) (k : NoticeKind) :
    (s.raise c k).journal = s.journal := by simp [State.raise]

@[simp] theorem State.raise_chan (s : State) (c : CPort) (k : NoticeKind) (i : Fin 256) :
    (s.raise c k).chan i = s.chan i := by simp [State.chan]

@[simp] theorem State.raise_port (s : State) (c : CPort) (k : NoticeKind) (q : FPort) :
    (s.raise c k).port q = s.port q := by simp [State.port]

@[simp] theorem State.raise_hub (s : State) (c : CPort) (k : NoticeKind) (g : Fin 16) :
    (s.raise c k).hub g = s.hub g := by simp [State.hub]

@[simp] theorem State.raise_param (s : State) (c : CPort) (k : NoticeKind) (i : ParamId) :
    (s.raise c k).param i = s.param i := by simp [State.param]

/-! ## State.raiseBoth -/

@[simp] theorem State.raiseBoth_pending (s : State) (k : NoticeKind) :
    (s.raiseBoth k).pending = s.pending := by simp [State.raiseBoth]

@[simp] theorem State.raiseBoth_order (s : State) (k : NoticeKind) :
    (s.raiseBoth k).order = s.order := by simp [State.raiseBoth]

@[simp] theorem State.raiseBoth_resetAsserted (s : State) (k : NoticeKind) :
    (s.raiseBoth k).resetAsserted = s.resetAsserted := by simp [State.raiseBoth]

@[simp] theorem State.raiseBoth_amberLine (s : State) (k : NoticeKind) :
    (s.raiseBoth k).amberLine = s.amberLine := by simp [State.raiseBoth]

@[simp] theorem State.raiseBoth_redLine (s : State) (k : NoticeKind) :
    (s.raiseBoth k).redLine = s.redLine := by simp [State.raiseBoth]

@[simp] theorem State.raiseBoth_array (s : State) (k : NoticeKind) :
    (s.raiseBoth k).array = s.array := by simp [State.raiseBoth]

@[simp] theorem State.raiseBoth_params (s : State) (k : NoticeKind) :
    (s.raiseBoth k).params = s.params := by simp [State.raiseBoth]

@[simp] theorem State.raiseBoth_channels (s : State) (k : NoticeKind) :
    (s.raiseBoth k).channels = s.channels := by simp [State.raiseBoth]

@[simp] theorem State.raiseBoth_ports (s : State) (k : NoticeKind) :
    (s.raiseBoth k).ports = s.ports := by simp [State.raiseBoth]

@[simp] theorem State.raiseBoth_hubs (s : State) (k : NoticeKind) :
    (s.raiseBoth k).hubs = s.hubs := by simp [State.raiseBoth]

@[simp] theorem State.raiseBoth_banks (s : State) (k : NoticeKind) :
    (s.raiseBoth k).banks = s.banks := by simp [State.raiseBoth]

@[simp] theorem State.raiseBoth_sched (s : State) (k : NoticeKind) :
    (s.raiseBoth k).sched = s.sched := by simp [State.raiseBoth]

@[simp] theorem State.raiseBoth_trig (s : State) (k : NoticeKind) :
    (s.raiseBoth k).trig = s.trig := by simp [State.raiseBoth]

@[simp] theorem State.raiseBoth_zones (s : State) (k : NoticeKind) :
    (s.raiseBoth k).zones = s.zones := by simp [State.raiseBoth]

@[simp] theorem State.raiseBoth_queue (s : State) (k : NoticeKind) :
    (s.raiseBoth k).queue = s.queue := by simp [State.raiseBoth]

@[simp] theorem State.raiseBoth_alert (s : State) (k : NoticeKind) :
    (s.raiseBoth k).alert = s.alert := by simp [State.raiseBoth]

@[simp] theorem State.raiseBoth_journal (s : State) (k : NoticeKind) :
    (s.raiseBoth k).journal = s.journal := by simp [State.raiseBoth]

@[simp] theorem State.raiseBoth_chan (s : State) (k : NoticeKind) (i : Fin 256) :
    (s.raiseBoth k).chan i = s.chan i := by simp [State.chan]

@[simp] theorem State.raiseBoth_port (s : State) (k : NoticeKind) (q : FPort) :
    (s.raiseBoth k).port q = s.port q := by simp [State.port]

@[simp] theorem State.raiseBoth_hub (s : State) (k : NoticeKind) (g : Fin 16) :
    (s.raiseBoth k).hub g = s.hub g := by simp [State.hub]

@[simp] theorem State.raiseBoth_param (s : State) (k : NoticeKind) (i : ParamId) :
    (s.raiseBoth k).param i = s.param i := by simp [State.param]

/-! ## State.setAlert -/

@[simp] theorem State.setAlert_pending (s : State) (a : Alert) :
    (s.setAlert a).pending = s.pending := rfl

@[simp] theorem State.setAlert_order (s : State) (a : Alert) :
    (s.setAlert a).order = s.order := rfl

@[simp] theorem State.setAlert_resetAsserted (s : State) (a : Alert) :
    (s.setAlert a).resetAsserted = s.resetAsserted := rfl

@[simp] theorem State.setAlert_array (s : State) (a : Alert) :
    (s.setAlert a).array = s.array := rfl

@[simp] theorem State.setAlert_params (s : State) (a : Alert) :
    (s.setAlert a).params = s.params := rfl

@[simp] theorem State.setAlert_channels (s : State) (a : Alert) :
    (s.setAlert a).channels = s.channels := rfl

@[simp] theorem State.setAlert_ports (s : State) (a : Alert) :
    (s.setAlert a).ports = s.ports := rfl

@[simp] theorem State.setAlert_hubs (s : State) (a : Alert) :
    (s.setAlert a).hubs = s.hubs := rfl

@[simp] theorem State.setAlert_banks (s : State) (a : Alert) :
    (s.setAlert a).banks = s.banks := rfl

@[simp] theorem State.setAlert_sched (s : State) (a : Alert) :
    (s.setAlert a).sched = s.sched := rfl

@[simp] theorem State.setAlert_trig (s : State) (a : Alert) :
    (s.setAlert a).trig = s.trig := rfl

@[simp] theorem State.setAlert_zones (s : State) (a : Alert) :
    (s.setAlert a).zones = s.zones := rfl

@[simp] theorem State.setAlert_queue (s : State) (a : Alert) :
    (s.setAlert a).queue = s.queue := rfl

@[simp] theorem State.setAlert_journal (s : State) (a : Alert) :
    (s.setAlert a).journal = s.journal := rfl

@[simp] theorem State.setAlert_survey (s : State) (a : Alert) :
    (s.setAlert a).survey = s.survey := rfl

@[simp] theorem State.setAlert_plant (s : State) (a : Alert) :
    (s.setAlert a).plant = s.plant := rfl

@[simp] theorem State.setAlert_chan (s : State) (a : Alert) (i : Fin 256) :
    (s.setAlert a).chan i = s.chan i := by simp [State.chan]

@[simp] theorem State.setAlert_port (s : State) (a : Alert) (q : FPort) :
    (s.setAlert a).port q = s.port q := by simp [State.port]

@[simp] theorem State.setAlert_hub (s : State) (a : Alert) (g : Fin 16) :
    (s.setAlert a).hub g = s.hub g := by simp [State.hub]

@[simp] theorem State.setAlert_param (s : State) (a : Alert) (i : ParamId) :
    (s.setAlert a).param i = s.param i := by simp [State.param]

@[simp] theorem State.setAlert_ctl (s : State) (a : Alert) (d : CPort) :
    (s.setAlert a).ctl d = s.ctl d := by cases d <;> simp [State.ctl]

@[simp] theorem State.setAlert_alert (s : State) (a : Alert) : (s.setAlert a).alert = a := rfl

@[simp] theorem State.setAlert_amberLine (s : State) (a : Alert) : (s.setAlert a).amberLine = (a.level != .green) := rfl

@[simp] theorem State.setAlert_redLine (s : State) (a : Alert) : (s.setAlert a).redLine = (a.level == .red) := rfl

/-! ## State.setJournal -/

@[simp] theorem State.setJournal_pending (s : State) (r : Journal × Bool) :
    (s.setJournal r).pending = s.pending := by unfold State.setJournal; split <;> simp

@[simp] theorem State.setJournal_order (s : State) (r : Journal × Bool) :
    (s.setJournal r).order = s.order := by unfold State.setJournal; split <;> simp

@[simp] theorem State.setJournal_resetAsserted (s : State) (r : Journal × Bool) :
    (s.setJournal r).resetAsserted = s.resetAsserted := by unfold State.setJournal; split <;> simp

@[simp] theorem State.setJournal_amberLine (s : State) (r : Journal × Bool) :
    (s.setJournal r).amberLine = s.amberLine := by unfold State.setJournal; split <;> simp

@[simp] theorem State.setJournal_redLine (s : State) (r : Journal × Bool) :
    (s.setJournal r).redLine = s.redLine := by unfold State.setJournal; split <;> simp

@[simp] theorem State.setJournal_array (s : State) (r : Journal × Bool) :
    (s.setJournal r).array = s.array := by unfold State.setJournal; split <;> simp

@[simp] theorem State.setJournal_params (s : State) (r : Journal × Bool) :
    (s.setJournal r).params = s.params := by unfold State.setJournal; split <;> simp

@[simp] theorem State.setJournal_channels (s : State) (r : Journal × Bool) :
    (s.setJournal r).channels = s.channels := by unfold State.setJournal; split <;> simp

@[simp] theorem State.setJournal_ports (s : State) (r : Journal × Bool) :
    (s.setJournal r).ports = s.ports := by unfold State.setJournal; split <;> simp

@[simp] theorem State.setJournal_hubs (s : State) (r : Journal × Bool) :
    (s.setJournal r).hubs = s.hubs := by unfold State.setJournal; split <;> simp

@[simp] theorem State.setJournal_banks (s : State) (r : Journal × Bool) :
    (s.setJournal r).banks = s.banks := by unfold State.setJournal; split <;> simp

@[simp] theorem State.setJournal_sched (s : State) (r : Journal × Bool) :
    (s.setJournal r).sched = s.sched := by unfold State.setJournal; split <;> simp

@[simp] theorem State.setJournal_trig (s : State) (r : Journal × Bool) :
    (s.setJournal r).trig = s.trig := by unfold State.setJournal; split <;> simp

@[simp] theorem State.setJournal_zones (s : State) (r : Journal × Bool) :
    (s.setJournal r).zones = s.zones := by unfold State.setJournal; split <;> simp

@[simp] theorem State.setJournal_queue (s : State) (r : Journal × Bool) :
    (s.setJournal r).queue = s.queue := by unfold State.setJournal; split <;> simp

@[simp] theorem State.setJournal_alert (s : State) (r : Journal × Bool) :
    (s.setJournal r).alert = s.alert := by unfold State.setJournal; split <;> simp

@[simp] theorem State.setJournal_chan (s : State) (r : Journal × Bool) (i : Fin 256) :
    (s.setJournal r).chan i = s.chan i := by simp [State.chan]

@[simp] theorem State.setJournal_port (s : State) (r : Journal × Bool) (q : FPort) :
    (s.setJournal r).port q = s.port q := by simp [State.port]

@[simp] theorem State.setJournal_hub (s : State) (r : Journal × Bool) (g : Fin 16) :
    (s.setJournal r).hub g = s.hub g := by simp [State.hub]

@[simp] theorem State.setJournal_param (s : State) (r : Journal × Bool) (i : ParamId) :
    (s.setJournal r).param i = s.param i := by simp [State.param]

/-! ## State.offer -/

@[simp] theorem State.offer_pending (s : State) (b : EntryBody) :
    (s.offer b).pending = s.pending := by simp [State.offer]

@[simp] theorem State.offer_order (s : State) (b : EntryBody) :
    (s.offer b).order = s.order := by simp [State.offer]

@[simp] theorem State.offer_resetAsserted (s : State) (b : EntryBody) :
    (s.offer b).resetAsserted = s.resetAsserted := by simp [State.offer]

@[simp] theorem State.offer_amberLine (s : State) (b : EntryBody) :
    (s.offer b).amberLine = s.amberLine := by simp [State.offer]

@[simp] theorem State.offer_redLine (s : State) (b : EntryBody) :
    (s.offer b).redLine = s.redLine := by simp [State.offer]

@[simp] theorem State.offer_array (s : State) (b : EntryBody) :
    (s.offer b).array = s.array := by simp [State.offer]

@[simp] theorem State.offer_params (s : State) (b : EntryBody) :
    (s.offer b).params = s.params := by simp [State.offer]

@[simp] theorem State.offer_channels (s : State) (b : EntryBody) :
    (s.offer b).channels = s.channels := by simp [State.offer]

@[simp] theorem State.offer_ports (s : State) (b : EntryBody) :
    (s.offer b).ports = s.ports := by simp [State.offer]

@[simp] theorem State.offer_hubs (s : State) (b : EntryBody) :
    (s.offer b).hubs = s.hubs := by simp [State.offer]

@[simp] theorem State.offer_banks (s : State) (b : EntryBody) :
    (s.offer b).banks = s.banks := by simp [State.offer]

@[simp] theorem State.offer_sched (s : State) (b : EntryBody) :
    (s.offer b).sched = s.sched := by simp [State.offer]

@[simp] theorem State.offer_trig (s : State) (b : EntryBody) :
    (s.offer b).trig = s.trig := by simp [State.offer]

@[simp] theorem State.offer_zones (s : State) (b : EntryBody) :
    (s.offer b).zones = s.zones := by simp [State.offer]

@[simp] theorem State.offer_queue (s : State) (b : EntryBody) :
    (s.offer b).queue = s.queue := by simp [State.offer]

@[simp] theorem State.offer_alert (s : State) (b : EntryBody) :
    (s.offer b).alert = s.alert := by simp [State.offer]

@[simp] theorem State.offer_chan (s : State) (b : EntryBody) (i : Fin 256) :
    (s.offer b).chan i = s.chan i := by simp [State.chan]

@[simp] theorem State.offer_port (s : State) (b : EntryBody) (q : FPort) :
    (s.offer b).port q = s.port q := by simp [State.port]

@[simp] theorem State.offer_hub (s : State) (b : EntryBody) (g : Fin 16) :
    (s.offer b).hub g = s.hub g := by simp [State.hub]

@[simp] theorem State.offer_param (s : State) (b : EntryBody) (i : ParamId) :
    (s.offer b).param i = s.param i := by simp [State.param]

/-! ## State.withdraw -/

@[simp] theorem State.withdraw_pending (s : State) (p : FPort) :
    (s.withdraw p).pending = s.pending := rfl

@[simp] theorem State.withdraw_order (s : State) (p : FPort) :
    (s.withdraw p).order = s.order := rfl

@[simp] theorem State.withdraw_resetAsserted (s : State) (p : FPort) :
    (s.withdraw p).resetAsserted = s.resetAsserted := rfl

@[simp] theorem State.withdraw_amberLine (s : State) (p : FPort) :
    (s.withdraw p).amberLine = s.amberLine := rfl

@[simp] theorem State.withdraw_redLine (s : State) (p : FPort) :
    (s.withdraw p).redLine = s.redLine := rfl

@[simp] theorem State.withdraw_array (s : State) (p : FPort) :
    (s.withdraw p).array = s.array := rfl

@[simp] theorem State.withdraw_params (s : State) (p : FPort) :
    (s.withdraw p).params = s.params := rfl

@[simp] theorem State.withdraw_channels (s : State) (p : FPort) :
    (s.withdraw p).channels = s.channels := rfl

@[simp] theorem State.withdraw_ports (s : State) (p : FPort) :
    (s.withdraw p).ports = s.ports := rfl

@[simp] theorem State.withdraw_hubs (s : State) (p : FPort) :
    (s.withdraw p).hubs = s.hubs := rfl

@[simp] theorem State.withdraw_banks (s : State) (p : FPort) :
    (s.withdraw p).banks = s.banks := rfl

@[simp] theorem State.withdraw_trig (s : State) (p : FPort) :
    (s.withdraw p).trig = s.trig := rfl

@[simp] theorem State.withdraw_zones (s : State) (p : FPort) :
    (s.withdraw p).zones = s.zones := rfl

@[simp] theorem State.withdraw_queue (s : State) (p : FPort) :
    (s.withdraw p).queue = s.queue := rfl

@[simp] theorem State.withdraw_alert (s : State) (p : FPort) :
    (s.withdraw p).alert = s.alert := rfl

@[simp] theorem State.withdraw_journal (s : State) (p : FPort) :
    (s.withdraw p).journal = s.journal := rfl

@[simp] theorem State.withdraw_survey (s : State) (p : FPort) :
    (s.withdraw p).survey = s.survey := rfl

@[simp] theorem State.withdraw_plant (s : State) (p : FPort) :
    (s.withdraw p).plant = s.plant := rfl

@[simp] theorem State.withdraw_chan (s : State) (p : FPort) (i : Fin 256) :
    (s.withdraw p).chan i = s.chan i := by simp [State.chan]

@[simp] theorem State.withdraw_port (s : State) (p : FPort) (q : FPort) :
    (s.withdraw p).port q = s.port q := by simp [State.port]

@[simp] theorem State.withdraw_hub (s : State) (p : FPort) (g : Fin 16) :
    (s.withdraw p).hub g = s.hub g := by simp [State.hub]

@[simp] theorem State.withdraw_param (s : State) (p : FPort) (i : ParamId) :
    (s.withdraw p).param i = s.param i := by simp [State.param]

@[simp] theorem State.withdraw_ctl (s : State) (p : FPort) (d : CPort) :
    (s.withdraw p).ctl d = s.ctl d := by cases d <;> simp [State.ctl]

/-! ## State.putReply -/

@[simp] theorem State.putReply_pending (s : State) (c : CPort) (r : Reply) :
    (s.putReply c r).pending = s.pending := by simp [State.putReply]

@[simp] theorem State.putReply_order (s : State) (c : CPort) (r : Reply) :
    (s.putReply c r).order = s.order := by simp [State.putReply]

@[simp] theorem State.putReply_resetAsserted (s : State) (c : CPort) (r : Reply) :
    (s.putReply c r).resetAsserted = s.resetAsserted := by simp [State.putReply]

@[simp] theorem State.putReply_amberLine (s : State) (c : CPort) (r : Reply) :
    (s.putReply c r).amberLine = s.amberLine := by simp [State.putReply]

@[simp] theorem State.putReply_redLine (s : State) (c : CPort) (r : Reply) :
    (s.putReply c r).redLine = s.redLine := by simp [State.putReply]

@[simp] theorem State.putReply_array (s : State) (c : CPort) (r : Reply) :
    (s.putReply c r).array = s.array := by simp [State.putReply]

@[simp] theorem State.putReply_params (s : State) (c : CPort) (r : Reply) :
    (s.putReply c r).params = s.params := by simp [State.putReply]

@[simp] theorem State.putReply_channels (s : State) (c : CPort) (r : Reply) :
    (s.putReply c r).channels = s.channels := by simp [State.putReply]

@[simp] theorem State.putReply_ports (s : State) (c : CPort) (r : Reply) :
    (s.putReply c r).ports = s.ports := by simp [State.putReply]

@[simp] theorem State.putReply_hubs (s : State) (c : CPort) (r : Reply) :
    (s.putReply c r).hubs = s.hubs := by simp [State.putReply]

@[simp] theorem State.putReply_banks (s : State) (c : CPort) (r : Reply) :
    (s.putReply c r).banks = s.banks := by simp [State.putReply]

@[simp] theorem State.putReply_sched (s : State) (c : CPort) (r : Reply) :
    (s.putReply c r).sched = s.sched := by simp [State.putReply]

@[simp] theorem State.putReply_trig (s : State) (c : CPort) (r : Reply) :
    (s.putReply c r).trig = s.trig := by simp [State.putReply]

@[simp] theorem State.putReply_zones (s : State) (c : CPort) (r : Reply) :
    (s.putReply c r).zones = s.zones := by simp [State.putReply]

@[simp] theorem State.putReply_queue (s : State) (c : CPort) (r : Reply) :
    (s.putReply c r).queue = s.queue := by simp [State.putReply]

@[simp] theorem State.putReply_alert (s : State) (c : CPort) (r : Reply) :
    (s.putReply c r).alert = s.alert := by simp [State.putReply]

@[simp] theorem State.putReply_journal (s : State) (c : CPort) (r : Reply) :
    (s.putReply c r).journal = s.journal := by simp [State.putReply]

@[simp] theorem State.putReply_chan (s : State) (c : CPort) (r : Reply) (i : Fin 256) :
    (s.putReply c r).chan i = s.chan i := by simp [State.chan]

@[simp] theorem State.putReply_port (s : State) (c : CPort) (r : Reply) (q : FPort) :
    (s.putReply c r).port q = s.port q := by simp [State.port]

@[simp] theorem State.putReply_hub (s : State) (c : CPort) (r : Reply) (g : Fin 16) :
    (s.putReply c r).hub g = s.hub g := by simp [State.hub]

@[simp] theorem State.putReply_param (s : State) (c : CPort) (r : Reply) (i : ParamId) :
    (s.putReply c r).param i = s.param i := by simp [State.param]

/-! ## State.popRequest -/

@[simp] theorem State.popRequest_pending (s : State) (c : CPort) :
    (s.popRequest c).pending = s.pending := by simp [State.popRequest]

@[simp] theorem State.popRequest_order (s : State) (c : CPort) :
    (s.popRequest c).order = s.order := by simp [State.popRequest]

@[simp] theorem State.popRequest_resetAsserted (s : State) (c : CPort) :
    (s.popRequest c).resetAsserted = s.resetAsserted := by simp [State.popRequest]

@[simp] theorem State.popRequest_amberLine (s : State) (c : CPort) :
    (s.popRequest c).amberLine = s.amberLine := by simp [State.popRequest]

@[simp] theorem State.popRequest_redLine (s : State) (c : CPort) :
    (s.popRequest c).redLine = s.redLine := by simp [State.popRequest]

@[simp] theorem State.popRequest_array (s : State) (c : CPort) :
    (s.popRequest c).array = s.array := by simp [State.popRequest]

@[simp] theorem State.popRequest_params (s : State) (c : CPort) :
    (s.popRequest c).params = s.params := by simp [State.popRequest]

@[simp] theorem State.popRequest_channels (s : State) (c : CPort) :
    (s.popRequest c).channels = s.channels := by simp [State.popRequest]

@[simp] theorem State.popRequest_ports (s : State) (c : CPort) :
    (s.popRequest c).ports = s.ports := by simp [State.popRequest]

@[simp] theorem State.popRequest_hubs (s : State) (c : CPort) :
    (s.popRequest c).hubs = s.hubs := by simp [State.popRequest]

@[simp] theorem State.popRequest_banks (s : State) (c : CPort) :
    (s.popRequest c).banks = s.banks := by simp [State.popRequest]

@[simp] theorem State.popRequest_sched (s : State) (c : CPort) :
    (s.popRequest c).sched = s.sched := by simp [State.popRequest]

@[simp] theorem State.popRequest_trig (s : State) (c : CPort) :
    (s.popRequest c).trig = s.trig := by simp [State.popRequest]

@[simp] theorem State.popRequest_zones (s : State) (c : CPort) :
    (s.popRequest c).zones = s.zones := by simp [State.popRequest]

@[simp] theorem State.popRequest_queue (s : State) (c : CPort) :
    (s.popRequest c).queue = s.queue := by simp [State.popRequest]

@[simp] theorem State.popRequest_alert (s : State) (c : CPort) :
    (s.popRequest c).alert = s.alert := by simp [State.popRequest]

@[simp] theorem State.popRequest_journal (s : State) (c : CPort) :
    (s.popRequest c).journal = s.journal := by simp [State.popRequest]

@[simp] theorem State.popRequest_chan (s : State) (c : CPort) (i : Fin 256) :
    (s.popRequest c).chan i = s.chan i := by simp [State.chan]

@[simp] theorem State.popRequest_port (s : State) (c : CPort) (q : FPort) :
    (s.popRequest c).port q = s.port q := by simp [State.port]

@[simp] theorem State.popRequest_hub (s : State) (c : CPort) (g : Fin 16) :
    (s.popRequest c).hub g = s.hub g := by simp [State.hub]

@[simp] theorem State.popRequest_param (s : State) (c : CPort) (i : ParamId) :
    (s.popRequest c).param i = s.param i := by simp [State.param]

/-! ## State.clearChanged -/

@[simp] theorem State.clearChanged_pending (s : State) :
    (s.clearChanged).pending = s.pending := rfl

@[simp] theorem State.clearChanged_order (s : State) :
    (s.clearChanged).order = s.order := rfl

@[simp] theorem State.clearChanged_resetAsserted (s : State) :
    (s.clearChanged).resetAsserted = s.resetAsserted := rfl

@[simp] theorem State.clearChanged_amberLine (s : State) :
    (s.clearChanged).amberLine = s.amberLine := rfl

@[simp] theorem State.clearChanged_redLine (s : State) :
    (s.clearChanged).redLine = s.redLine := rfl

@[simp] theorem State.clearChanged_array (s : State) :
    (s.clearChanged).array = s.array := rfl

@[simp] theorem State.clearChanged_params (s : State) :
    (s.clearChanged).params = s.params := rfl

@[simp] theorem State.clearChanged_ports (s : State) :
    (s.clearChanged).ports = s.ports := rfl

@[simp] theorem State.clearChanged_hubs (s : State) :
    (s.clearChanged).hubs = s.hubs := rfl

@[simp] theorem State.clearChanged_banks (s : State) :
    (s.clearChanged).banks = s.banks := rfl

@[simp] theorem State.clearChanged_sched (s : State) :
    (s.clearChanged).sched = s.sched := rfl

@[simp] theorem State.clearChanged_trig (s : State) :
    (s.clearChanged).trig = s.trig := rfl

@[simp] theorem State.clearChanged_zones (s : State) :
    (s.clearChanged).zones = s.zones := rfl

@[simp] theorem State.clearChanged_queue (s : State) :
    (s.clearChanged).queue = s.queue := rfl

@[simp] theorem State.clearChanged_alert (s : State) :
    (s.clearChanged).alert = s.alert := rfl

@[simp] theorem State.clearChanged_journal (s : State) :
    (s.clearChanged).journal = s.journal := rfl

@[simp] theorem State.clearChanged_survey (s : State) :
    (s.clearChanged).survey = s.survey := rfl

@[simp] theorem State.clearChanged_plant (s : State) :
    (s.clearChanged).plant = s.plant := rfl

@[simp] theorem State.clearChanged_port (s : State) (q : FPort) :
    (s.clearChanged).port q = s.port q := by simp [State.port]

@[simp] theorem State.clearChanged_hub (s : State) (g : Fin 16) :
    (s.clearChanged).hub g = s.hub g := by simp [State.hub]

@[simp] theorem State.clearChanged_param (s : State) (i : ParamId) :
    (s.clearChanged).param i = s.param i := by simp [State.param]

@[simp] theorem State.clearChanged_ctl (s : State) (d : CPort) :
    (s.clearChanged).ctl d = s.ctl d := by cases d <;> simp [State.ctl]

/-! ## State.sendNotice -/

@[simp] theorem State.sendNotice_pending (s : State) (c : CPort) (k : NoticeKind) (rest : List NoticeKind) :
    (s.sendNotice c k rest).pending = s.pending := by
  unfold State.sendNotice; dsimp only; split <;> simp

@[simp] theorem State.sendNotice_order (s : State) (c : CPort) (k : NoticeKind) (rest : List NoticeKind) :
    (s.sendNotice c k rest).order = s.order := by
  unfold State.sendNotice; dsimp only; split <;> simp

@[simp] theorem State.sendNotice_resetAsserted (s : State) (c : CPort) (k : NoticeKind) (rest : List NoticeKind) :
    (s.sendNotice c k rest).resetAsserted = s.resetAsserted := by
  unfold State.sendNotice; dsimp only; split <;> simp

@[simp] theorem State.sendNotice_amberLine (s : State) (c : CPort) (k : NoticeKind) (rest : List NoticeKind) :
    (s.sendNotice c k rest).amberLine = s.amberLine := by
  unfold State.sendNotice; dsimp only; split <;> simp

@[simp] theorem State.sendNotice_redLine (s : State) (c : CPort) (k : NoticeKind) (rest : List NoticeKind) :
    (s.sendNotice c k rest).redLine = s.redLine := by
  unfold State.sendNotice; dsimp only; split <;> simp

@[simp] theorem State.sendNotice_array (s : State) (c : CPort) (k : NoticeKind) (rest : List NoticeKind) :
    (s.sendNotice c k rest).array = s.array := by
  unfold State.sendNotice; dsimp only; split <;> simp

@[simp] theorem State.sendNotice_params (s : State) (c : CPort) (k : NoticeKind) (rest : List NoticeKind) :
    (s.sendNotice c k rest).params = s.params := by
  unfold State.sendNotice; dsimp only; split <;> simp

@[simp] theorem State.sendNotice_ports (s : State) (c : CPort) (k : NoticeKind) (rest : List NoticeKind) :
    (s.sendNotice c k rest).ports = s.ports := by
  unfold State.sendNotice; dsimp only; split <;> simp

@[simp] theorem State.sendNotice_hubs (s : State) (c : CPort) (k : NoticeKind) (rest : List NoticeKind) :
    (s.sendNotice c k rest).hubs = s.hubs := by
  unfold State.sendNotice; dsimp only; split <;> simp

@[simp] theorem State.sendNotice_banks (s : State) (c : CPort) (k : NoticeKind) (rest : List NoticeKind) :
    (s.sendNotice c k rest).banks = s.banks := by
  unfold State.sendNotice; dsimp only; split <;> simp

@[simp] theorem State.sendNotice_sched (s : State) (c : CPort) (k : NoticeKind) (rest : List NoticeKind) :
    (s.sendNotice c k rest).sched = s.sched := by
  unfold State.sendNotice; dsimp only; split <;> simp

@[simp] theorem State.sendNotice_trig (s : State) (c : CPort) (k : NoticeKind) (rest : List NoticeKind) :
    (s.sendNotice c k rest).trig = s.trig := by
  unfold State.sendNotice; dsimp only; split <;> simp

@[simp] theorem State.sendNotice_zones (s : State) (c : CPort) (k : NoticeKind) (rest : List NoticeKind) :
    (s.sendNotice c k rest).zones = s.zones := by
  unfold State.sendNotice; dsimp only; split <;> simp

@[simp] theorem State.sendNotice_queue (s : State) (c : CPort) (k : NoticeKind) (rest : List NoticeKind) :
    (s.sendNotice c k rest).queue = s.queue := by
  unfold State.sendNotice; dsimp only; split <;> simp

@[simp] theorem State.sendNotice_alert (s : State) (c : CPort) (k : NoticeKind) (rest : List NoticeKind) :
    (s.sendNotice c k rest).alert = s.alert := by
  unfold State.sendNotice; dsimp only; split <;> simp

@[simp] theorem State.sendNotice_journal (s : State) (c : CPort) (k : NoticeKind) (rest : List NoticeKind) :
    (s.sendNotice c k rest).journal = s.journal := by
  unfold State.sendNotice; dsimp only; split <;> simp

@[simp] theorem State.sendNotice_port (s : State) (c : CPort) (k : NoticeKind) (rest : List NoticeKind) (q : FPort) :
    (s.sendNotice c k rest).port q = s.port q := by simp [State.port]

@[simp] theorem State.sendNotice_hub (s : State) (c : CPort) (k : NoticeKind) (rest : List NoticeKind) (g : Fin 16) :
    (s.sendNotice c k rest).hub g = s.hub g := by simp [State.hub]

@[simp] theorem State.sendNotice_param (s : State) (c : CPort) (k : NoticeKind) (rest : List NoticeKind) (i : ParamId) :
    (s.sendNotice c k rest).param i = s.param i := by simp [State.param]

/-! ## State.transmit -/

@[simp] theorem State.transmit_pending (s : State) (c : CPort) :
    (s.transmit c).pending = s.pending := by
  unfold State.transmit; dsimp only; repeat (first | split | simp)

@[simp] theorem State.transmit_order (s : State) (c : CPort) :
    (s.transmit c).order = s.order := by
  unfold State.transmit; dsimp only; repeat (first | split | simp)

@[simp] theorem State.transmit_resetAsserted (s : State) (c : CPort) :
    (s.transmit c).resetAsserted = s.resetAsserted := by
  unfold State.transmit; dsimp only; repeat (first | split | simp)

@[simp] theorem State.transmit_amberLine (s : State) (c : CPort) :
    (s.transmit c).amberLine = s.amberLine := by
  unfold State.transmit; dsimp only; repeat (first | split | simp)

@[simp] theorem State.transmit_redLine (s : State) (c : CPort) :
    (s.transmit c).redLine = s.redLine := by
  unfold State.transmit; dsimp only; repeat (first | split | simp)

@[simp] theorem State.transmit_array (s : State) (c : CPort) :
    (s.transmit c).array = s.array := by
  unfold State.transmit; dsimp only; repeat (first | split | simp)

@[simp] theorem State.transmit_params (s : State) (c : CPort) :
    (s.transmit c).params = s.params := by
  unfold State.transmit; dsimp only; repeat (first | split | simp)

@[simp] theorem State.transmit_ports (s : State) (c : CPort) :
    (s.transmit c).ports = s.ports := by
  unfold State.transmit; dsimp only; repeat (first | split | simp)

@[simp] theorem State.transmit_hubs (s : State) (c : CPort) :
    (s.transmit c).hubs = s.hubs := by
  unfold State.transmit; dsimp only; repeat (first | split | simp)

@[simp] theorem State.transmit_banks (s : State) (c : CPort) :
    (s.transmit c).banks = s.banks := by
  unfold State.transmit; dsimp only; repeat (first | split | simp)

@[simp] theorem State.transmit_sched (s : State) (c : CPort) :
    (s.transmit c).sched = s.sched := by
  unfold State.transmit; dsimp only; repeat (first | split | simp)

@[simp] theorem State.transmit_trig (s : State) (c : CPort) :
    (s.transmit c).trig = s.trig := by
  unfold State.transmit; dsimp only; repeat (first | split | simp)

@[simp] theorem State.transmit_zones (s : State) (c : CPort) :
    (s.transmit c).zones = s.zones := by
  unfold State.transmit; dsimp only; repeat (first | split | simp)

@[simp] theorem State.transmit_queue (s : State) (c : CPort) :
    (s.transmit c).queue = s.queue := by
  unfold State.transmit; dsimp only; repeat (first | split | simp)

@[simp] theorem State.transmit_alert (s : State) (c : CPort) :
    (s.transmit c).alert = s.alert := by
  unfold State.transmit; dsimp only; repeat (first | split | simp)

@[simp] theorem State.transmit_journal (s : State) (c : CPort) :
    (s.transmit c).journal = s.journal := by
  unfold State.transmit; dsimp only; repeat (first | split | simp)

@[simp] theorem State.transmit_port (s : State) (c : CPort) (q : FPort) :
    (s.transmit c).port q = s.port q := by simp [State.port]

@[simp] theorem State.transmit_hub (s : State) (c : CPort) (g : Fin 16) :
    (s.transmit c).hub g = s.hub g := by simp [State.hub]

@[simp] theorem State.transmit_param (s : State) (c : CPort) (i : ParamId) :
    (s.transmit c).param i = s.param i := by simp [State.param]

/-! ## State.transmitBoth -/

@[simp] theorem State.transmitBoth_pending (s : State) :
    (s.transmitBoth).pending = s.pending := by simp [State.transmitBoth]

@[simp] theorem State.transmitBoth_order (s : State) :
    (s.transmitBoth).order = s.order := by simp [State.transmitBoth]

@[simp] theorem State.transmitBoth_resetAsserted (s : State) :
    (s.transmitBoth).resetAsserted = s.resetAsserted := by simp [State.transmitBoth]

@[simp] theorem State.transmitBoth_amberLine (s : State) :
    (s.transmitBoth).amberLine = s.amberLine := by simp [State.transmitBoth]

@[simp] theorem State.transmitBoth_redLine (s : State) :
    (s.transmitBoth).redLine = s.redLine := by simp [State.transmitBoth]

@[simp] theorem State.transmitBoth_array (s : State) :
    (s.transmitBoth).array = s.array := by simp [State.transmitBoth]

@[simp] theorem State.transmitBoth_params (s : State) :
    (s.transmitBoth).params = s.params := by simp [State.transmitBoth]

@[simp] theorem State.transmitBoth_ports (s : State) :
    (s.transmitBoth).ports = s.ports := by simp [State.transmitBoth]

@[simp] theorem State.transmitBoth_hubs (s : State) :
    (s.transmitBoth).hubs = s.hubs := by simp [State.transmitBoth]

@[simp] theorem State.transmitBoth_banks (s : State) :
    (s.transmitBoth).banks = s.banks := by simp [State.transmitBoth]

@[simp] theorem State.transmitBoth_sched (s : State) :
    (s.transmitBoth).sched = s.sched := by simp [State.transmitBoth]

@[simp] theorem State.transmitBoth_trig (s : State) :
    (s.transmitBoth).trig = s.trig := by simp [State.transmitBoth]

@[simp] theorem State.transmitBoth_zones (s : State) :
    (s.transmitBoth).zones = s.zones := by simp [State.transmitBoth]

@[simp] theorem State.transmitBoth_queue (s : State) :
    (s.transmitBoth).queue = s.queue := by simp [State.transmitBoth]

@[simp] theorem State.transmitBoth_alert (s : State) :
    (s.transmitBoth).alert = s.alert := by simp [State.transmitBoth]

@[simp] theorem State.transmitBoth_journal (s : State) :
    (s.transmitBoth).journal = s.journal := by simp [State.transmitBoth]

@[simp] theorem State.transmitBoth_port (s : State) (q : FPort) :
    (s.transmitBoth).port q = s.port q := by simp [State.port]

@[simp] theorem State.transmitBoth_hub (s : State) (g : Fin 16) :
    (s.transmitBoth).hub g = s.hub g := by simp [State.hub]

@[simp] theorem State.transmitBoth_param (s : State) (i : ParamId) :
    (s.transmitBoth).param i = s.param i := by simp [State.param]

end Sys2Proof.Machine
end

