-- ==== Sys2Proof/Laws/Frames.lean ====
section
/-!
SUPPORT. What the records' own operations leave alone: an entry offered to the journal, a notice raised, an event handed
on and a trigger decision carried out touch no table of the part; a change of a channel touches the channels, the
journal, the survey port and the order tape.
-/

namespace Sys2Proof.Machine

/-- The tables of the part other than the channels, and the records that only run control and the bank requests change. -/
structure SameTables (s t : State) : Prop where
  pending : t.pending = s.pending
  resetAsserted : t.resetAsserted = s.resetAsserted
  array : t.array = s.array
  params : t.params = s.params
  ports : t.ports = s.ports
  hubs : t.hubs = s.hubs
  banks : t.banks = s.banks
  sched : t.sched = s.sched
  zones : t.zones = s.zones

theorem SameTables.refl (s : State) : SameTables s s := ⟨rfl, rfl, rfl, rfl, rfl, rfl, rfl, rfl, rfl⟩

theorem SameTables.trans {s t u : State} (h : SameTables s t) (g : SameTables t u) : SameTables s u :=
  ⟨g.pending.trans h.pending, g.resetAsserted.trans h.resetAsserted, g.array.trans h.array, g.params.trans h.params,
    g.ports.trans h.ports, g.hubs.trans h.hubs, g.banks.trans h.banks, g.sched.trans h.sched, g.zones.trans h.zones⟩

/-- The tables, the channels and the trigger record. -/
structure SameRecords (s t : State) : Prop extends SameTables s t where
  channels : t.channels = s.channels
  trig : t.trig = s.trig

theorem SameRecords.refl (s : State) : SameRecords s s := ⟨SameTables.refl s, rfl, rfl⟩

theorem SameRecords.trans {s t u : State} (h : SameRecords s t) (g : SameRecords t u) : SameRecords s u :=
  ⟨h.toSameTables.trans g.toSameTables, g.channels.trans h.channels, g.trig.trans h.trig⟩

theorem SameRecords.ite {s t u : State} {p : Prop} [Decidable p] (h : SameRecords s t) (g : SameRecords s u) :
    SameRecords s (if p then t else u) := by
  split <;> assumption

theorem SameRecords.ofJournal (s : State) (j : Journal) : SameRecords s { s with journal := j } :=
  { SameRecords.refl s with }

theorem SameRecords.ofQueue (s : State) (q : EventQueue) : SameRecords s { s with queue := q } :=
  { SameRecords.refl s with }

theorem SameRecords.setAlert (s : State) (a : Alert) : SameRecords s (s.setAlert a) := { SameRecords.refl s with }

theorem SameRecords.setCtl (s : State) (c : CPort) (x : CtlPort) : SameRecords s (s.setCtl c x) := by
  cases c <;> exact { SameRecords.refl s with }

theorem SameRecords.raise (s : State) (c : CPort) (k : NoticeKind) : SameRecords s (s.raise c k) := SameRecords.setCtl s _ _

theorem SameRecords.raiseBoth (s : State) (k : NoticeKind) : SameRecords s (s.raiseBoth k) :=
  (SameRecords.raise s _ _).trans (SameRecords.raise _ _ _)

theorem SameRecords.setJournal (s : State) (r : Journal × Bool) : SameRecords s (s.setJournal r) :=
  SameRecords.ite ((SameRecords.ofJournal s r.1).trans (SameRecords.raise _ _ _)) (SameRecords.ofJournal s r.1)

theorem SameRecords.offer (s : State) (b : EntryBody) : SameRecords s (s.offer b) := SameRecords.setJournal s _

theorem SameRecords.quietWindow (s : State) : SameRecords s s.quietWindow := SameRecords.setJournal s _

theorem SameRecords.queueRecord (s : State) (e : EventRecord) : SameRecords s (s.queueRecord e) := by
  unfold State.queueRecord
  refine SameRecords.ite ((SameRecords.ofQueue s _).trans (SameRecords.raiseBoth _ _)) ?_
  split
  · exact (((SameRecords.ofQueue s _).trans (SameRecords.offer _ _)).trans (SameRecords.ofQueue _ _)).trans
      (SameRecords.raiseBoth _ _)
  · exact SameRecords.offer s _

theorem SameRecords.takeLevel (s : State) (l : EventLevel) (q : Nat) : SameRecords s (s.takeLevel l q) := by
  unfold State.takeLevel
  split
  · exact (SameRecords.setAlert s _).trans (SameRecords.raiseBoth _ _)
  · exact SameRecords.refl s

theorem SameRecords.handOn (s : State) (e : EventRecord) : SameRecords s (s.handOn e) :=
  ((SameRecords.offer s _).trans (SameRecords.queueRecord _ _)).trans
    (SameRecords.ite (SameRecords.refl _) (SameRecords.takeLevel _ _ _))

/-- The close of an event changes the journal, the queue, the alert record with its lines, and the control ports. -/
theorem SameRecords.closeEvent (s : State) (c : Close) (tr : Bool) : SameRecords s (s.closeEvent c tr) :=
  SameRecords.ite (SameRecords.offer s _) ((SameRecords.ofQueue s _).trans (SameRecords.handOn _ _))

theorem SameRecords.foldl {α : Type} (l : List α) {f : State → α → State} (h : ∀ s a, SameRecords s (f s a)) (s : State) :
    SameRecords s (l.foldl f s) := by
  induction l generalizing s with
  | nil => exact SameRecords.refl s
  | cons a l ih => exact (h s a).trans (ih _)

/-- A decision carried out changes what its closes change. -/
theorem SameRecords.carryOut (s : State) (d : Decision) (w : Nat) (tr : Bool) : SameRecords s (s.carryOut d w tr) := by
  unfold State.carryOut
  have h := SameRecords.foldl d.moves
    (f := fun s m => s.offer (.trigger m.old m.new w m.rejected)) (fun s m => SameRecords.offer s _) s
  split
  · exact h.trans (SameRecords.closeEvent _ _ _)
  · exact h

theorem SameRecords.windowEntry (s : State) (r : WindowResult) (b : TrigState) (d : Decision) :
    SameRecords s (s.windowEntry r b d) := by
  unfold State.windowEntry
  split
  · exact SameRecords.ite (SameRecords.quietWindow s) (SameRecords.offer s _)
  · exact SameRecords.offer s _

/-- A window result taken: the trigger record is the decision's, and no table and no channel changes. -/
theorem State.takeResult_frame (s : State) (r : WindowResult) :
    SameRecords { s with trig := (s.trig.take s.params r).trig } (s.takeResult r) :=
  (SameRecords.windowEntry _ _ _ _).trans (SameRecords.carryOut _ _ _ _)

/-- A slip or ARRAY STOP taken by the trigger unit: the trigger record is the truncation's, and no table and no channel
changes. -/
theorem State.truncateTrigger_frame (s : State) (f : Nat) :
    SameRecords { s with trig := s.trig.truncate.trig } (s.truncateTrigger f) :=
  SameRecords.carryOut _ _ _ _

/-! ## Channels -/

/-- A change of a channel leaves every table and the trigger record. -/
structure SameButChannels (s t : State) : Prop extends SameTables s t where
  trig : t.trig = s.trig
  queue : t.queue = s.queue
  alert : t.alert = s.alert
  plant : t.plant = s.plant

theorem SameButChannels.refl (s : State) : SameButChannels s s := ⟨SameTables.refl s, rfl, rfl, rfl, rfl⟩

theorem SameButChannels.trans {s t u : State} (h : SameButChannels s t) (g : SameButChannels t u) : SameButChannels s u :=
  ⟨h.toSameTables.trans g.toSameTables, g.trig.trans h.trig, g.queue.trans h.queue, g.alert.trans h.alert,
    g.plant.trans h.plant⟩

theorem SameButChannels.offer (s : State) (b : EntryBody) : SameButChannels s (s.offer b) :=
  ⟨(SameRecords.offer s b).toSameTables, by simp, by simp, by simp, by simp [State.offer, State.setJournal]; split <;> rfl⟩

/-- A change of a channel's state. -/
theorem SameButChannels.moveChan (s : State) (j : Fin 256) (dest : ChanState) (u : Channel → Channel) :
    SameButChannels s (s.moveChan j dest u) :=
  SameButChannels.trans (t := (s.setChan j { u (s.chan j) with state := dest, changed := true }).raise .survey .channel)
    { SameButChannels.refl s with } (SameButChannels.offer _ _)

theorem SameButChannels.moveFrom (s : State) (j : Fin 256) (old dest : ChanState) :
    SameButChannels s (s.moveFrom j old dest) := by
  unfold State.moveFrom
  split
  · exact SameButChannels.moveChan s _ _ _
  · exact SameButChannels.refl s

/-- Members handled in a free order, each by a change of channels. -/
theorem SameButChannels.each {α : Type} (s : State) (l : List α) {f : State → α → State}
    (h : ∀ s a, SameButChannels s (f s a)) : SameButChannels s (s.each l f) :=
  SameButChannels.trans (t := { s with order := (shuffle l.length s.order l).2 }) { SameButChannels.refl s with }
    (foldl_keeps (P := SameButChannels { s with order := (shuffle l.length s.order l).2 }) _
      (fun t a _ ht => ht.trans (h t a)) _ (SameButChannels.refl _))

end Sys2Proof.Machine
end

