-- ==== Sys2Proof/Laws/Framing.lean ====
section
/-!
SUPPORT. The receiver's search of a line (03, R46): it runs to the end of its bytes, however much fuel it is given.
-/

namespace Sys2Proof.Machine

/-- What bounds the events left in a search: twice the bytes, and three more in a frame, whose 0x49 may be searched again. -/
def searchBound (inFrame : Bool) (got : List Byte) : Nat := if inFrame then 2 * got.length + 3 else 2 * got.length

/-- A search with fuel above its bound does not depend on the fuel. -/
theorem scan_fuel (max n m : Nat) (inFrame : Bool) (got : List Byte) (hn : searchBound inFrame got < n)
    (hm : searchBound inFrame got < m) : scan max n inFrame got = scan max m inFrame got := by
  induction n generalizing m inFrame got with
  | zero => omega
  | succ n ih =>
    obtain ⟨m, rfl⟩ : ∃ k, m = k + 1 := ⟨m - 1, by omega⟩
    cases inFrame with
    | false =>
      match got with
      | [] => rfl
      | [_] => rfl
      | x :: y :: r =>
        simp only [searchBound, Bool.false_eq_true, if_false, List.length_cons] at hn hm
        simp only [scan]
        split
        · rw [ih m true r (by simp only [searchBound, if_true]; omega) (by simp only [searchBound, if_true]; omega)]
        · exact ih m false (y :: r) (by simp [searchBound]; omega) (by simp [searchBound]; omega)
    | true =>
      simp only [searchBound, if_true] at hn hm
      have again : scan max n false (0x49 :: got) = scan max m false (0x49 :: got) :=
        ih m false _ (by simp [searchBound]; omega) (by simp [searchBound]; omega)
      have onward : ∀ k, scan max n false (got.drop k) = scan max m false (got.drop k) := fun k =>
        ih m false _ (by simp [searchBound]; omega) (by simp [searchBound]; omega)
      simp only [scan, again, onward]

/-- A search is what `feed` makes of it for a receiver that hunts. -/
theorem scan_hunting {max n : Nat} {got : List Byte} (h : 2 * got.length < n) :
    scan max n false got = feed max (.hunting false) got :=
  scan_fuel max n _ false got (by simpa [searchBound] using h) (by simp [searchBound])

/-- A search in a frame is what `feed` makes of it for a receiver that receives. -/
theorem scan_receiving {max n : Nat} {got : List Byte} (h : 2 * got.length + 3 < n) :
    scan max n true got = feed max (.receiving []) got :=
  scan_fuel max n _ true got (by simpa [searchBound] using h) (by simp [searchBound])

end Sys2Proof.Machine
end

