-- ==== Sys2Proof/Laws/Stores.lean ====
section
/-!
SUPPORT. The addressed stores: what a read gives after a write, and that a write keeps the canonical form.
-/

namespace Sys2Proof.Machine

variable {α : Type}

theorem Store.read_write (m : Store α) (k q : Nat) (v : α) :
    Store.read (Store.write m k v) q = if q = k then some v else Store.read m q := by
  induction m with
  | nil => simp [Store.write, Store.read]
  | cons e r ih =>
    obtain ⟨a, x⟩ := e
    simp only [Store.write]
    split
    · simp only [Store.read]
    · split
      · rename_i h1 h2
        subst h2
        simp only [Store.read]
        split <;> simp_all
      · rename_i h1 h2
        simp only [Store.read, ih]
        by_cases hq : q = a
        · rw [if_pos hq, if_neg (by omega), if_pos hq]
        · rw [if_neg hq, if_neg hq]

/-- A value read stands in the store. -/
theorem Store.mem_of_read {m : Store α} {k : Nat} {v : α} (h : Store.read m k = some v) : (k, v) ∈ m := by
  induction m with
  | nil => simp [Store.read] at h
  | cons e r ih =>
    simp only [Store.read] at h
    split at h
    · rename_i hk
      cases h
      simp [hk]
    · simp [ih h]

/-- A value that stands in a canonical store is read. -/
theorem Store.read_of_mem {m : Store α} {k : Nat} {v : α} (hw : Store.wf m = true) (h : (k, v) ∈ m) :
    Store.read m k = some v := by
  induction m with
  | nil => simp at h
  | cons e r ih =>
    obtain ⟨a, x⟩ := e
    simp only [Store.wf, Bool.and_eq_true, List.all_eq_true, decide_eq_true_eq] at hw
    simp only [Store.read]
    rcases List.mem_cons.1 h with h | h
    · cases h
      simp
    · have := hw.1 _ h
      rw [if_neg (by simp at this; omega)]
      exact ih hw.2 h

/-- The keys of a canonical store rise strictly. -/
theorem Store.keys_rise {m : Store α} (h : Store.wf m = true) : m.Pairwise fun e f => e.1 < f.1 := by
  induction m with
  | nil => exact List.Pairwise.nil
  | cons e r ih =>
    simp only [Store.wf, Bool.and_eq_true, List.all_eq_true, decide_eq_true_eq] at h
    exact List.pairwise_cons.2 ⟨h.1, ih h.2⟩

theorem Store.mem_write {m : Store α} {k : Nat} {v : α} {e : Nat × α} (h : e ∈ Store.write m k v) :
    e = (k, v) ∨ e ∈ m := by
  induction m with
  | nil => simpa [Store.write] using h
  | cons a r ih =>
    simp only [Store.write] at h
    split at h
    · simpa using h
    · split at h
      · rcases List.mem_cons.mp h with h | h
        · exact .inl h
        · exact .inr (List.mem_cons_of_mem _ h)
      · rcases List.mem_cons.mp h with h | h
        · exact .inr (h ▸ List.mem_cons_self)
        · rcases ih h with h | h
          · exact .inl h
          · exact .inr (List.mem_cons_of_mem _ h)

theorem Store.wf_write (m : Store α) (k : Nat) (v : α) (h : Store.wf m = true) :
    Store.wf (Store.write m k v) = true := by
  induction m with
  | nil => simp [Store.write, Store.wf]
  | cons e r ih =>
    obtain ⟨a, x⟩ := e
    simp only [Store.wf, Bool.and_eq_true, List.all_eq_true, decide_eq_true_eq] at h
    simp only [Store.write]
    split
    · simp only [Store.wf, Bool.and_eq_true, List.all_eq_true, decide_eq_true_eq, List.mem_cons]
      refine ⟨fun e he => ?_, h⟩
      rcases he with rfl | he
      · assumption
      · have := h.1 e he
        omega
    · split
      · rename_i h2
        subst h2
        simpa [Store.wf] using h
      · simp only [Store.wf, Bool.and_eq_true, List.all_eq_true, decide_eq_true_eq]
        refine ⟨fun e he => ?_, ih h.2⟩
        rcases Store.mem_write he with rfl | he
        · dsimp only
          omega
        · exact h.1 e he

theorem Store.wf_writeRun (vs : List α) (m : Store α) (k : Nat) (h : Store.wf m = true) :
    Store.wf (Store.writeRun m k vs) = true := by
  induction vs generalizing m k with
  | nil => exact h
  | cons v vs ih => exact ih _ _ (Store.wf_write m k v h)

theorem Store.read_writeRun (vs : List α) (m : Store α) (k q : Nat) :
    Store.read (Store.writeRun m k vs) q = if k ≤ q ∧ q < k + vs.length then vs[q - k]? else Store.read m q := by
  induction vs generalizing m k with
  | nil => simp [Store.writeRun]
  | cons v vs ih =>
    simp only [Store.writeRun, ih, Store.read_write, List.length_cons]
    by_cases h1 : k + 1 ≤ q ∧ q < k + 1 + vs.length
    · rw [if_pos h1, if_pos (by omega)]
      obtain ⟨d, hd⟩ : ∃ d, q - k = d + 1 := ⟨q - k - 1, by omega⟩
      rw [hd, List.getElem?_cons_succ]
      congr 1
      omega
    · rw [if_neg h1]
      by_cases h2 : q = k
      · subst h2
        simp
      · rw [if_neg h2, if_neg (by omega)]

end Sys2Proof.Machine
end

