-- ==== Sys2Proof/Laws/Records.lean ====
section
/-!
SUPPORT. What the operations on one record keep of the law the manual gives that record.
-/

namespace Sys2Proof.Machine

/-! ## Channels -/

theorem ChanOk.takeSample {c : Channel} (h : ChanOk c) {r : CondRec} (hr : c.cond = some r) (ps : Params) (asn : Nat)
    (x : Option Int) : ChanOk (c.takeSample ps r asn x).1 := by
  have hc := h.record
  rw [hr] at hc
  unfold Channel.takeSample
  dsimp only
  split
  · exact ⟨hc, Store.wf_write _ _ _ h.ring⟩
  · exact ⟨hc, h.ring⟩

/-- A channel given a state, a record exactly if the state has one, and anything else but its ring. -/
theorem ChanOk.of_record {c d : Channel} (h : ChanOk c) (hr : d.cond.isSome = d.state.conditioned)
    (ring : d.ring = c.ring) : ChanOk d := ⟨hr, ring ▸ h.ring⟩

/-! ## Journal -/

/-- A journal with other counts of what it has not yet written. -/
theorem JournalOk.congr {j k : Journal} (h : JournalOk j) (he : k.entries = j.entries) (hn : k.next = j.next)
    (hs : k.spent = j.spent) : JournalOk k :=
  ⟨he ▸ h.room, he ▸ h.rising, by rw [he, hn, hs]; exact h.below, hn ▸ h.counter, by rw [hn, hs]; exact h.last⟩

theorem JournalOk.append {j : Journal} (h : JournalOk j) (hs : j.spent = false) (b : EntryBody) :
    JournalOk (j.append b) := by
  have hlt : ∀ e ∈ j.entries, e.serial < j.next := fun e he => (h.below e he).resolve_right (by simp [hs])
  obtain ⟨kept, hkept, hsub, hl⟩ : ∃ kept,
      (if Config.journalPlaces ≤ j.entries.length then j.entries.tail else j.entries) = kept ∧
        kept.Sublist j.entries ∧ kept.length + 1 ≤ Config.journalPlaces := by
    refine ⟨_, rfl, ?_, ?_⟩
    · split
      · exact List.tail_sublist _
      · exact List.Sublist.refl _
    · have := h.room
      have hpos : 0 < Config.journalPlaces := by decide
      split
      · rw [List.length_tail]
        omega
      · omega
  have hc := h.counter
  unfold Journal.append
  rw [hkept]
  refine ⟨by simpa using hl, ?_, ?_, ?_, ?_⟩
  · simp only [List.map_append, List.map_cons, List.map_nil]
    refine List.pairwise_append.mpr ⟨h.rising.sublist (hsub.map _), List.pairwise_singleton _ _, ?_⟩
    intro a ha c hc'
    obtain ⟨e, he, rfl⟩ := List.mem_map.mp ha
    rw [List.mem_singleton.mp hc']
    exact hlt e (hsub.subset he)
  · intro e he
    dsimp only
    rcases List.mem_append.mp he with he | he
    · have := hlt e (hsub.subset he)
      left
      split <;> omega
    · rw [List.mem_singleton.mp he]
      by_cases hn : j.next < Config.max32
      · left
        simp [hn]
      · right
        simp [hn]
  · dsimp only
    split <;> omega
  · intro hsp
    simp only [Bool.not_eq_true', decide_eq_false_iff_not] at hsp
    dsimp only
    rw [if_neg hsp]
    omega

theorem JournalOk.write {j : Journal} (h : JournalOk j) (hs : j.spent = false) (hold : Bool) (post : Nat)
    (b : EntryBody) : JournalOk (Journal.write hold post b j).1 := by
  have h1 : JournalOk ((j.append b).countPost (b.isRed && hold) post j.next) := (h.append hs b).congr rfl rfl rfl
  unfold Journal.write Journal.endPost
  split
  · exact h1.congr rfl rfl rfl
  · exact h1

theorem Journal.spent_of_not_silent {j : Journal} (h : j.silent = false) : j.spent = false := by
  simp only [Journal.silent, Bool.or_eq_false_iff] at h
  exact h.2

/-- An entry written to a journal that differs from one that is not silent in its counts only. -/
theorem JournalOk.writeFrom {j k : Journal} (h : JournalOk j) (hj : j.silent = false) (he : k.entries = j.entries)
    (hn : k.next = j.next) (hs : k.spent = j.spent) (hold : Bool) (post : Nat) (b : EntryBody) :
    JournalOk (Journal.write hold post b k).1 :=
  JournalOk.write (h.congr he hn hs) (hs.trans (Journal.spent_of_not_silent hj)) hold post b

theorem JournalOk.flush {j : Journal} (h : JournalOk j) (hold : Bool) (post : Nat) :
    JournalOk (j.flush hold post).1 := by
  unfold Journal.flush
  split
  · exact h
  · rename_i hg
    simp only [Bool.or_eq_true, not_or, Bool.not_eq_true] at hg
    refine h.writeFrom hg.1 ?_ ?_ ?_ _ _ _ <;> rfl

theorem JournalOk.release {j : Journal} (h : JournalOk j) (hold : Bool) (post : Nat) :
    JournalOk (j.release hold post).1 := by
  unfold Journal.release
  split
  · split
    · exact h
    · rename_i hg
      simp only [Bool.or_eq_true, not_or, Bool.not_eq_true] at hg
      refine h.writeFrom hg.1 ?_ ?_ ?_ _ _ _ <;> rfl
  · exact h

theorem JournalOk.offer {j : Journal} (h : JournalOk j) (hold : Bool) (post : Nat) (b : EntryBody) :
    JournalOk (j.offer hold post b).1 := by
  unfold Journal.offer
  split
  · exact h
  · split
    · exact h.congr rfl rfl rfl
    · dsimp only
      have h2 := (h.flush hold post).release hold post
      split
      · exact h2
      · rename_i hg
        refine h2.writeFrom (by simpa using hg) ?_ ?_ ?_ _ _ _ <;> rfl

theorem JournalOk.quietWindow {j : Journal} (h : JournalOk j) (hold : Bool) (post : Nat) :
    JournalOk (j.quietWindow hold post).1 := by
  unfold Journal.quietWindow
  split
  · exact h
  · rename_i hg
    split
    · refine h.writeFrom (by simpa using hg) ?_ ?_ ?_ _ _ _ <;> rfl
    · exact h.congr rfl rfl rfl

/-! ## Event queue -/

theorem QueueOk.add {q : EventQueue} (h : QueueOk q) {e : EventRecord} (room : q.records.length < Config.queuePlaces)
    (above : ∀ r ∈ q.records, r.sequence < e.sequence) (counted : e.sequence ≤ q.counter) : QueueOk (q.add e) := by
  refine ⟨by simp [EventQueue.add]; omega, ?_, ?_, h.counter⟩
  · simp only [EventQueue.add, List.map_append, List.map_cons, List.map_nil]
    refine List.pairwise_append.mpr ⟨h.rising, List.pairwise_singleton _ _, ?_⟩
    intro a ha c hc
    obtain ⟨r, hr, rfl⟩ := List.mem_map.mp ha
    rw [List.mem_singleton.mp hc]
    exact above r hr
  · intro r hr
    rcases List.mem_append.mp hr with hr | hr
    · exact h.counted r hr
    · rw [List.mem_singleton.mp hr]
      exact counted

theorem QueueOk.sub {q : EventQueue} (h : QueueOk q) {l : List EventRecord} (hl : l.Sublist q.records) :
    QueueOk { q with records := l } :=
  ⟨le_trans hl.length_le h.room, h.rising.sublist (hl.map _), fun r hr => h.counted r (hl.subset hr), h.counter⟩

theorem EventQueue.victim_mem {q : EventQueue} {l : EventLevel} {e : EventRecord} (h : q.victim l = some e) :
    e ∈ q.records := by
  unfold EventQueue.victim at h
  split at h
  · exact List.mem_of_find?_eq_some h
  · cases h

theorem QueueOk.evict {q : EventQueue} (h : QueueOk q) {e old : EventRecord} (ho : old ∈ q.records)
    (above : ∀ r ∈ q.records, r.sequence < e.sequence) (counted : e.sequence ≤ q.counter) :
    QueueOk ((q.remove old).add e) := by
  have hs : (q.records.erase old).Sublist q.records := List.erase_sublist
  refine (h.sub hs).add ?_ (fun r hr => above r (hs.subset hr)) counted
  have hp : 0 < q.records.length := List.length_pos_of_mem ho
  have := h.room
  show (q.records.erase old).length < _
  rw [List.length_erase_of_mem ho]
  omega

/-! ## Control ports -/

theorem CtlOk.raise {c : CPort} {x : CtlPort} (h : CtlOk c x) {k : NoticeKind} (hk : k.receivedBy c = true) :
    CtlOk c (x.raise k) := by
  unfold CtlPort.raise
  split
  · exact h
  · rename_i hg
    rw [not_or] at hg
    refine ⟨h.queue, h.refusals, ?_, ?_, ?_, h.resets⟩
    · exact List.nodup_append.mpr ⟨h.once, List.nodup_singleton _, by
        intro a ha b hb he
        rw [List.mem_singleton.mp hb] at he
        exact hg.2 (he ▸ ha)⟩
    · intro a ha
      rcases List.mem_append.mp ha with ha | ha
      · exact h.unmasked a ha
      · rw [List.mem_singleton.mp ha]
        exact hg.1
    · intro a ha
      rcases List.mem_append.mp ha with ha | ha
      · exact h.received a ha
      · rw [List.mem_singleton.mp ha]
        exact hk

/-! ## Trigger -/

theorem TriggerOk.powerOn : TriggerOk Trigger.powerOn := rfl

theorem TriggerOk.drop (moves : List Move) (r : Bool) : TriggerOk (Trigger.drop moves r).trig := rfl

theorem TriggerOk.closeTest {ps : Params} {t : Trigger} (h : TriggerOk t) (moves : List Move) :
    TriggerOk (Trigger.closeTest ps t moves).trig := by
  unfold Trigger.closeTest
  split
  · rfl
  · split
    · rfl
    · exact h

theorem TriggerOk.rejectTest {ps : Params} {t : Trigger} (h : TriggerOk t) (moves : List Move) :
    TriggerOk (Trigger.rejectTest ps t moves).trig := by
  unfold Trigger.rejectTest
  split
  · rfl
  · exact h

theorem TriggerOk.openWith (ps : Params) (p : Peak) (moves : List Move) :
    TriggerOk (Trigger.openWith ps p moves).trig := TriggerOk.closeTest (by simp [TriggerOk]) _

theorem TriggerOk.take {t : Trigger} (h : TriggerOk t) (ps : Params) (r : WindowResult) :
    TriggerOk (t.take ps r).trig := by
  unfold Trigger.take
  split
  · unfold Trigger.takeIdle
    split
    · split
      · split
        · exact TriggerOk.openWith _ _ _
        · exact TriggerOk.rejectTest (by simp [TriggerOk]) _
      · exact h
    · exact h
  · rename_i hs
    simp only [TriggerOk, hs] at h
    unfold Trigger.takeArmed
    split
    · split
      · exact TriggerOk.openWith _ _ _
      · exact TriggerOk.rejectTest (by simp [TriggerOk, hs]) _
    · exact TriggerOk.rejectTest (by simp [TriggerOk, hs, h.1]) _
  · rename_i hs
    simp only [TriggerOk, hs] at h
    unfold Trigger.takeOpen
    refine TriggerOk.closeTest ?_ _
    simp only [TriggerOk, hs]
    refine ⟨?_, by omega⟩
    cases r with
    | peak p => rfl
    | blind w n m => exact h.1

theorem TriggerOk.truncate {t : Trigger} (h : TriggerOk t) : TriggerOk t.truncate.trig := by
  unfold Trigger.truncate
  split
  · exact h
  · rfl
  · rfl

/-! ## Banks -/

theorem one_le_nextSerial (n : Nat) : 1 ≤ nextSerial n := by
  unfold nextSerial
  split <;> omega

theorem BanksOk.swapped {b : BankCtl} (h : BanksOk b) : BanksOk b.swapped :=
  ⟨fun hf => by simp [BankCtl.swapped] at hf, fun _ => ⟨one_le_nextSerial _, rfl⟩, h.standby, h.active⟩

end Sys2Proof.Machine
end

