-- ==== Sys2Proof/Laws/Keeps.lean ====
section
/-!
SUPPORT. What the work of the part inside a step may do to a state, said once and shown for every shared operation: the
waiting commands, the array state, the parameters, the zone rules, the grid and the injection state stay, and each
record's law is kept.
-/

namespace Sys2Proof.Machine

/-- What the work inside a step may do to a state, the event queue apart. -/
structure Work (s t : State) : Prop where
  pending : t.pending = s.pending
  resetAsserted : t.resetAsserted = s.resetAsserted
  array : t.array = s.array
  params : t.params = s.params
  zones : t.zones = s.zones
  injection : t.alert.injection = s.alert.injection
  grid : t.banks.grid = s.banks.grid
  lines : LinesFollowLevel s → LinesFollowLevel t
  journal : JournalOk s.journal → JournalOk t.journal
  ctl : ∀ c, CtlOk c (s.ctl c) → CtlOk c (t.ctl c)
  channels : ChannelsOk s → ChannelsOk t
  trigger : TriggerOk s.trig → TriggerOk t.trig
  banks : BanksOk s.banks → BanksOk t.banks
  active : s.banks.hasActive = true → t.banks.hasActive = true
  hubs : HubsOk s.hubs → HubsOk t.hubs
  sched : SchedOk s → SchedOk t ∧ FrontNotBack s t

/-- What the work inside a step may do to a state. -/
structure Keeps (s t : State) : Prop extends Work s t where
  queue : QueueOk s.queue → QueueOk t.queue

/-- A change that leaves the scheduler record and the array state. -/
theorem sameSched {s t : State} (h : t.sched = s.sched) (ha : t.array = s.array) (g : SchedOk s) :
    SchedOk t ∧ FrontNotBack s t := by
  refine ⟨⟨h ▸ g.front, h ▸ g.timer, h ▸ g.flight, h ▸ g.named, h ▸ ha ▸ g.stopped⟩, fun f hf => ⟨f, h ▸ hf, le_rfl⟩⟩

theorem Work.refl (s : State) : Work s s :=
  ⟨rfl, rfl, rfl, rfl, rfl, rfl, rfl, id, id, fun _ => id, id, id, id, id, id, sameSched rfl rfl⟩

theorem Work.trans {s t u : State} (h : Work s t) (g : Work t u) : Work s u :=
  ⟨g.pending.trans h.pending, g.resetAsserted.trans h.resetAsserted, g.array.trans h.array, g.params.trans h.params,
    g.zones.trans h.zones, g.injection.trans h.injection, g.grid.trans h.grid, fun x => g.lines (h.lines x),
    fun x => g.journal (h.journal x), fun c x => g.ctl c (h.ctl c x), fun x => g.channels (h.channels x),
    fun x => g.trigger (h.trigger x), fun x => g.banks (h.banks x), fun x => g.active (h.active x),
    fun x => g.hubs (h.hubs x), fun x =>
      ⟨(g.sched (h.sched x).1).1, fun f hf => by
        obtain ⟨f1, h1, l1⟩ := (h.sched x).2 f hf
        obtain ⟨f2, h2, l2⟩ := (g.sched (h.sched x).1).2 f1 h1
        exact ⟨f2, h2, l1.trans l2⟩⟩⟩

theorem Keeps.refl (s : State) : Keeps s s := ⟨Work.refl s, id⟩

theorem Keeps.trans {s t u : State} (h : Keeps s t) (g : Keeps t u) : Keeps s u :=
  ⟨h.toWork.trans g.toWork, fun x => g.queue (h.queue x)⟩

/-! ## One part of the state changed -/

theorem Keeps.ofOrder (s : State) (o : List Nat) : Keeps s { s with order := o } :=
  { Keeps.refl s with
    ctl := fun c => by cases c <;> exact id
    sched := sameSched rfl rfl }

theorem Keeps.ofSched (s : State) (x : Sched)
    (h : SchedOk s → SchedOk { s with sched := x } ∧ FrontNotBack s { s with sched := x }) :
    Keeps s { s with sched := x } :=
  { Keeps.refl s with
    ctl := fun c => by cases c <;> exact id
    sched := h }

theorem Keeps.ofChannels (s : State) (x : Vector Channel 256)
    (h : ∀ j, ChanOk (s.chan j) → ChanOk (vget x j)) : Keeps s { s with channels := x } :=
  { Keeps.refl s with
    ctl := fun c => by cases c <;> exact id
    channels := fun g j => h j (g j)
    sched := sameSched rfl rfl }

theorem Keeps.setChan (s : State) (j : Fin 256) (x : Channel) (h : ChanOk (s.chan j) → ChanOk x) :
    Keeps s (s.setChan j x) := by
  refine Keeps.ofChannels s _ fun i hi => ?_
  rw [vget_vset]
  split
  · rename_i he
    exact h (he ▸ hi)
  · exact hi

theorem Keeps.ofPorts (s : State) (x : Vector FieldPort 4) : Keeps s { s with ports := x } :=
  { Keeps.refl s with
    ctl := fun c => by cases c <;> exact id
    sched := sameSched rfl rfl }

theorem Keeps.setPort (s : State) (p : FPort) (x : FieldPort) : Keeps s (s.setPort p x) := Keeps.ofPorts s _

theorem Keeps.ofHubs (s : State) (x : Vector HubEntry 16) (h : HubsOk s.hubs → HubsOk x) :
    Keeps s { s with hubs := x } :=
  { Keeps.refl s with
    ctl := fun c => by cases c <;> exact id
    hubs := h
    sched := sameSched rfl rfl }

theorem Keeps.ofTrig (s : State) (x : Trigger) (h : TriggerOk s.trig → TriggerOk x) : Keeps s { s with trig := x } :=
  { Keeps.refl s with
    ctl := fun c => by cases c <;> exact id
    trigger := h
    sched := sameSched rfl rfl }

theorem Keeps.ofBanks (s : State) (x : BankCtl) (h : BanksOk s.banks → BanksOk x) (hg : x.grid = s.banks.grid)
    (ha : s.banks.hasActive = true → x.hasActive = true) : Keeps s { s with banks := x } :=
  { Keeps.refl s with
    grid := hg
    ctl := fun c => by cases c <;> exact id
    banks := h
    active := ha
    sched := sameSched rfl rfl }

theorem Keeps.setCtl (s : State) (c : CPort) (x : CtlPort) (h : CtlOk c (s.ctl c) → CtlOk c x) :
    Keeps s (s.setCtl c x) := by
  cases c with
  | survey =>
    exact
      { Keeps.refl s with
        ctl := fun d => match d with
          | .survey => h
          | .plant => id
        sched := sameSched rfl rfl }
  | plant =>
    exact
      { Keeps.refl s with
        ctl := fun d => match d with
          | .survey => id
          | .plant => h
        sched := sameSched rfl rfl }

theorem Keeps.raise (s : State) (c : CPort) (k : NoticeKind) (h : k.receivedBy c = true) : Keeps s (s.raise c k) :=
  Keeps.setCtl s c _ fun hc => hc.raise h

theorem Keeps.raiseBoth (s : State) (k : NoticeKind) (h : ∀ c, k.receivedBy c = true) : Keeps s (s.raiseBoth k) :=
  (Keeps.raise s _ k (h _)).trans (Keeps.raise _ _ k (h _))

theorem Keeps.setAlert (s : State) (a : Alert) (h : a.injection = s.alert.injection) : Keeps s (s.setAlert a) :=
  { Keeps.refl s with
    injection := h
    lines := fun _ => ⟨rfl, rfl⟩
    ctl := fun c => by cases c <;> exact id
    sched := sameSched rfl rfl }

theorem Keeps.ofJournal (s : State) (j : Journal) (h : JournalOk s.journal → JournalOk j) :
    Keeps s { s with journal := j } :=
  { Keeps.refl s with
    journal := h
    ctl := fun c => by cases c <;> exact id
    sched := sameSched rfl rfl }

theorem Keeps.setJournal (s : State) (r : Journal × Bool) (h : JournalOk s.journal → JournalOk r.1) :
    Keeps s (s.setJournal r) := by
  unfold State.setJournal
  dsimp only
  split
  · exact (Keeps.ofJournal s r.1 h).trans (Keeps.raise _ _ _ rfl)
  · exact Keeps.ofJournal s r.1 h

/-- The event queue changed, whatever it becomes. -/
theorem Work.ofQueue (s : State) (q : EventQueue) : Work s { s with queue := q } :=
  { Work.refl s with
    ctl := fun c => by cases c <;> exact id
    sched := sameSched rfl rfl }

/-! ## Repetition and choice -/

theorem Keeps.ite {s t u : State} {p : Prop} [Decidable p] (h : Keeps s t) (g : Keeps s u) :
    Keeps s (if p then t else u) := by
  split
  · exact h
  · exact g

theorem Keeps.each {α : Type} (s : State) (l : List α) {f : State → α → State}
    (h : ∀ s, ∀ a ∈ l, Keeps s (f s a)) : Keeps s (s.each l f) :=
  State.each_keeps (P := fun t => Keeps s t) l (fun t o ht => ht.trans (Keeps.ofOrder t o))
    (fun t a ha ht => ht.trans (h t a ha)) s (Keeps.refl s)

theorem Keeps.foldl {α : Type} (s : State) (l : List α) {f : State → α → State} (h : ∀ s a, Keeps s (f s a)) :
    Keeps s (l.foldl f s) :=
  foldl_keeps (P := fun t => Keeps s t) l (fun t a _ ht => ht.trans (h t a)) s (Keeps.refl s)

/-! ## Journal (09) -/

theorem Keeps.offer (s : State) (b : EntryBody) : Keeps s (s.offer b) := Keeps.setJournal s _ fun h => h.offer _ _ _

theorem Keeps.quietWindow (s : State) : Keeps s s.quietWindow := Keeps.setJournal s _ fun h => h.quietWindow _ _

theorem Keeps.flushQuiet (s : State) : Keeps s s.flushQuiet := Keeps.setJournal s _ fun h => h.flush _ _

/-! ## Error log (04) -/

theorem Keeps.ofSlips (s : State) (l : List SlipReq) : Keeps s { s with sched := { s.sched with slips := l } } :=
  Keeps.ofSched s _ fun h => ⟨⟨h.front, h.timer, h.flight, h.named, h.stopped⟩, fun f hf => ⟨f, hf, le_rfl⟩⟩

theorem Keeps.withdraw (s : State) (p : FPort) : Keeps s (s.withdraw p) := Keeps.ofSlips s _

theorem Keeps.stopPort (s : State) (p : FPort) (st : PortState) : Keeps s (s.stopPort p st) :=
  (Keeps.setPort s _ _).trans (Keeps.withdraw _ _)

theorem Keeps.logError (s : State) (p : FPort) (k : ErrKind) (h : HeaderLog) : Keeps s (s.logError p k h) := by
  have h1 := Keeps.setPort s p { s.port p with log := (s.port p).log.occur k h }
  unfold State.logError
  dsimp only
  refine Keeps.ite ((h1.trans ?_).trans (Keeps.stopPort _ _ _)) (h1.trans ?_)
  all_goals exact Keeps.ite (Keeps.raise _ _ _ rfl) (Keeps.refl _)

/-! ## Event queue and alert unit (08) -/

theorem Work.queueRecord (s : State) (e : EventRecord) : Work s (s.queueRecord e) := by
  unfold State.queueRecord
  split
  · exact (Work.ofQueue s _).trans (Keeps.raiseBoth _ _ (by intro c; cases c <;> rfl)).toWork
  · split
    · exact (((Work.ofQueue s _).trans (Keeps.offer _ _).toWork).trans (Work.ofQueue _ _)).trans
        (Keeps.raiseBoth _ _ (by intro c; cases c <;> rfl)).toWork
    · exact (Keeps.offer _ _).toWork

theorem Keeps.changeAlert (s : State) (a : Alert) (h : a.injection = s.alert.injection) :
    Keeps s (s.changeAlert a) :=
  (Keeps.setAlert s a h).trans (Keeps.raiseBoth _ _ (by intro c; cases c <;> rfl))

theorem Alert.take_injection {a b : Alert} {d : Nat} {l : EventLevel} {q : Nat} (h : a.take d l q = some b) :
    b.injection = a.injection := by
  unfold Alert.take at h
  split at h <;> cases h <;> rfl

theorem Keeps.takeLevel (s : State) (l : EventLevel) (q : Nat) : Keeps s (s.takeLevel l q) := by
  unfold State.takeLevel
  split
  · rename_i a ha
    exact Keeps.changeAlert s a (Alert.take_injection ha)
  · exact Keeps.refl s

theorem Keeps.dwellRunsOut (s : State) : Keeps s (dwellRunsOut s) := by
  unfold Machine.dwellRunsOut
  split
  · exact Keeps.ite (Keeps.changeAlert _ _ rfl) (Keeps.changeAlert _ _ rfl)
  · exact Keeps.refl s
  · exact Keeps.refl s

/-! ## Supervisor (02) -/

theorem Keeps.moveChan (s : State) (j : Fin 256) (dest : ChanState) (upd : Channel → Channel)
    (h : ChanOk (s.chan j) → ChanOk { upd (s.chan j) with state := dest, changed := true }) :
    Keeps s (s.moveChan j dest upd) :=
  ((Keeps.setChan s j _ h).trans (Keeps.raise _ _ _ rfl)).trans (Keeps.offer _ _)

theorem Keeps.moveFrom (s : State) (j : Fin 256) (old dest : ChanState) (h : dest.conditioned = old.conditioned) :
    Keeps s (s.moveFrom j old dest) := by
  unfold State.moveFrom
  split
  · rename_i ho
    refine Keeps.moveChan s j dest id fun hc => hc.of_record ?_ rfl
    show (s.chan j).cond.isSome = dest.conditioned
    rw [hc.record, ho, h]
  · exact Keeps.refl s

theorem Keeps.restartChan (s : State) (j : Fin 256) (asn : Nat) : Keeps s (s.restartChan j asn) :=
  Keeps.moveChan s j _ _ fun hc => hc.of_record rfl rfl

theorem Keeps.discardTo (s : State) (j : Fin 256) (dest : ChanState) (h : dest.conditioned = false) :
    Keeps s (s.moveChan j dest Channel.discard) :=
  Keeps.moveChan s j _ _ fun hc => hc.of_record (by simp [Channel.discard, h]) rfl

theorem Keeps.latch (s : State) (j : Fin 256) (a : Alarms) : Keeps s (s.latch j a) := by
  unfold State.latch
  dsimp only
  refine Keeps.ite (Keeps.refl s) ((Keeps.setChan s j _ fun hc => ?_).trans (Keeps.raise _ _ _ rfl))
  exact hc.of_record hc.record rfl

theorem Keeps.countHolds (s : State) (j : Fin 256) (r : TickReport) : Keeps s (s.countHolds j r) := by
  unfold State.countHolds
  refine (Keeps.setChan s j _ fun hc => ?_).trans (Keeps.latch _ _ _)
  exact hc.of_record hc.record rfl

theorem Keeps.muteDecision (s : State) (j : Fin 256) : Keeps s (s.muteDecision j) := by
  have move : ∀ dest : ChanState, dest.conditioned = (s.chan j).state.conditioned → Keeps s (s.moveChan j dest id) :=
    fun dest hd => Keeps.moveChan s j dest id fun hc => hc.of_record (hc.record.trans hd.symm) rfl
  unfold State.muteDecision
  dsimp only
  split
  · rename_i hs
    exact Keeps.ite (move _ (by rw [hs]; rfl)) (Keeps.refl s)
  · rename_i hs
    exact Keeps.ite (move _ (by rw [hs]; rfl)) (Keeps.refl s)
  · rename_i hs
    exact Keeps.ite (Keeps.refl s) (move _ (by rw [hs]; rfl))
  all_goals exact Keeps.refl s

theorem Keeps.supervise (s : State) (j : Fin 256) (r : TickReport) : Keeps s (s.supervise j r) := by
  unfold State.supervise
  dsimp only
  have h1 : Keeps s (if r.settleDone = true then s.moveFrom j .settling .live else s) :=
    Keeps.ite (Keeps.moveFrom _ _ _ _ rfl) (Keeps.refl s)
  have h2 := h1.trans (Keeps.latch _ j ⟨false, false, !r.clipBefore && r.clipAfter⟩)
  exact Keeps.ite ((h2.trans (Keeps.countHolds _ _ _)).trans (Keeps.muteDecision _ _)) h2

theorem Keeps.lostCheck (s : State) (f : Nat) : Keeps s (s.lostCheck f) :=
  Keeps.each s _ fun _ _ _ => Keeps.discardTo _ _ _ rfl

theorem Keeps.rejoinAll (s : State) (f : Nat) : Keeps s (s.rejoinAll f) :=
  Keeps.each s _ fun _ _ _ => Keeps.moveFrom _ _ _ _ rfl

theorem Keeps.takeWeights (s : State) : Keeps s s.takeWeights :=
  Keeps.ofChannels s _ fun j hj => by
    rw [vget_vmap]
    exact hj.of_record hj.record rfl

theorem Keeps.advanced (s : State) (f : Nat) : Keeps s (s.advanced f) :=
  ((Keeps.takeWeights s).trans (Keeps.lostCheck _ _)).trans (Keeps.rejoinAll _ _)

/-! ## Banks (05) -/

theorem Keeps.swapBanks (s : State) : Keeps s s.swapBanks :=
  ((Keeps.ofBanks s _ (fun h => h.swapped) rfl fun _ => rfl).trans (Keeps.offer _ _)).trans (Keeps.raise _ _ _ rfl)

theorem Keeps.considerSwap (s : State) : Keeps s s.considerSwap := Keeps.ite (Keeps.swapBanks s) (Keeps.refl s)

theorem Keeps.endActivation (s : State) (o : OutcomeRec) : Keeps s (s.endActivation o) :=
  (Keeps.ofBanks s { s.banks with standbyState := .loading, outcome := o }
    (fun h => ⟨h.absent, h.present, h.active, h.standby⟩) rfl id).trans (Keeps.raise _ _ _ rfl)

/-! ## Trigger and event builder (07) -/

theorem Work.handOn (s : State) (e : EventRecord) : Work s (s.handOn e) := by
  unfold State.handOn
  dsimp only
  have h := (Keeps.offer s (.event e.sequence e.level)).toWork.trans (Work.queueRecord _ e)
  split
  · exact h
  · exact h.trans (Keeps.takeLevel _ _ _).toWork

theorem State.takeLevel_queue (s : State) (l : EventLevel) (q : Nat) : (s.takeLevel l q).queue = s.queue := by
  unfold State.takeLevel
  split
  · simp [State.changeAlert]
  · rfl

/-- The queue after a record of a fresh sequence has been handed on (08, R150, R151). -/
theorem QueueOk.handOn {s : State} (h : QueueOk s.queue) (e : EventRecord)
    (above : ∀ r ∈ s.queue.records, r.sequence < e.sequence) (counted : e.sequence ≤ s.queue.counter) :
    QueueOk (s.handOn e).queue := by
  have key : QueueOk ((s.offer (.event e.sequence e.level)).queueRecord e).queue := by
    unfold State.queueRecord
    split
    · rename_i hr
      simp only [State.raiseBoth_queue, State.offer_queue] at hr ⊢
      exact h.add hr above counted
    · split
      · rename_i old ho
        simp only [State.raiseBoth_queue, State.offer_queue] at ho ⊢
        exact h.evict (EventQueue.victim_mem ho) above counted
      · simpa using h
  unfold State.handOn
  dsimp only
  split
  · exact key
  · rw [State.takeLevel_queue]
    exact key

theorem Keeps.closeEvent (s : State) (c : Close) (tr : Bool) : Keeps s (s.closeEvent c tr) := by
  unfold State.closeEvent
  split
  · exact Keeps.offer _ _
  · rename_i hsup
    dsimp only
    refine ⟨(Work.ofQueue s _).trans (Work.handOn _ _), fun h => ?_⟩
    have hc : s.queue.counter < Config.max32 := by
      simp only [State.suppressesClose, Bool.or_eq_true, decide_eq_true_eq, not_or] at hsup
      omega
    refine QueueOk.handOn (s := { s with queue := { s.queue with counter := s.queue.counter + 1 } }) ?_ _ ?_ ?_
    · exact ⟨h.room, h.rising, fun r hr => Nat.le_succ_of_le (h.counted r hr), hc⟩
    · exact fun r hr => Nat.lt_succ_of_le (h.counted r hr)
    · exact le_refl _

theorem Keeps.carryOut (s : State) (d : Decision) (w : Nat) (tr : Bool) : Keeps s (s.carryOut d w tr) := by
  unfold State.carryOut
  dsimp only
  have h := Keeps.foldl s d.moves (f := fun s m => s.offer (.trigger m.old m.new w m.rejected))
    fun _ _ => Keeps.offer _ _
  split
  · exact h.trans (Keeps.closeEvent _ _ _)
  · exact h

theorem Keeps.windowEntry (s : State) (r : WindowResult) (b : TrigState) (d : Decision) :
    Keeps s (s.windowEntry r b d) := by
  unfold State.windowEntry
  split
  · exact Keeps.ite (Keeps.quietWindow _) (Keeps.offer _ _)
  · exact Keeps.offer _ _

theorem Keeps.takeResult (s : State) (r : WindowResult) : Keeps s (s.takeResult r) :=
  ((Keeps.ofTrig s _ fun h => h.take _ _).trans (Keeps.windowEntry _ _ _ _)).trans (Keeps.carryOut _ _ _ _)

theorem Keeps.truncateTrigger (s : State) (f : Nat) : Keeps s (s.truncateTrigger f) :=
  (Keeps.ofTrig s _ fun h => h.truncate).trans (Keeps.carryOut _ _ _ _)

/-! ## The scheduler record under what does not belong to the scheduler -/

@[simp] theorem State.moveChan_sched (s : State) (j : Fin 256) (d : ChanState) (u : Channel → Channel) :
    (s.moveChan j d u).sched = s.sched := by simp [State.moveChan]

@[simp] theorem State.moveFrom_sched (s : State) (j : Fin 256) (o d : ChanState) :
    (s.moveFrom j o d).sched = s.sched := by
  unfold State.moveFrom
  split <;> simp

theorem State.each_sched {α : Type} (s : State) (l : List α) {f : State → α → State}
    (h : ∀ s a, (f s a).sched = s.sched) : (s.each l f).sched = s.sched :=
  State.each_keeps (P := fun t => t.sched = s.sched) l (fun _ _ ht => ht) (fun t a _ ht => (h t a).trans ht) s rfl

@[simp] theorem State.changeAlert_sched (s : State) (a : Alert) : (s.changeAlert a).sched = s.sched := by
  simp [State.changeAlert]

@[simp] theorem State.takeLevel_sched (s : State) (l : EventLevel) (q : Nat) : (s.takeLevel l q).sched = s.sched := by
  unfold State.takeLevel
  split <;> simp

@[simp] theorem State.queueRecord_sched (s : State) (e : EventRecord) : (s.queueRecord e).sched = s.sched := by
  unfold State.queueRecord
  split
  · simp
  · split <;> simp

@[simp] theorem State.closeEvent_sched (s : State) (c : Close) (tr : Bool) :
    (s.closeEvent c tr).sched = s.sched := by
  unfold State.closeEvent State.handOn
  dsimp only
  split
  · simp
  · split <;> simp

@[simp] theorem State.carryOut_sched (s : State) (d : Decision) (w : Nat) (tr : Bool) :
    (s.carryOut d w tr).sched = s.sched := by
  have h := foldl_keeps (P := fun t : State => t.sched = s.sched) d.moves
    (f := fun s m => s.offer (.trigger m.old m.new w m.rejected)) (fun t a _ ht => by simpa using ht) s rfl
  unfold State.carryOut
  dsimp only
  split <;> simpa using h

@[simp] theorem State.truncateTrigger_sched (s : State) (f : Nat) : (s.truncateTrigger f).sched = s.sched := by
  simp [State.truncateTrigger]

@[simp] theorem State.reportLaggards_sched (s : State) (f : Nat) (l : List (Fin 256)) :
    (s.reportLaggards f l).sched = s.sched := by
  have h := State.each_sched s l (f := fun s j => s.moveFrom j .live .lagging) fun s j => s.moveFrom_sched j _ _
  unfold State.reportLaggards
  dsimp only
  split <;> simpa using h

/-! ## Scheduler (06) -/

theorem Keeps.reportLaggards (s : State) (f : Nat) (l : List (Fin 256)) : Keeps s (s.reportLaggards f l) := by
  have h := Keeps.each s l (f := fun s j => s.moveFrom j .live .lagging) fun _ _ _ => Keeps.moveFrom _ _ _ _ rfl
  exact Keeps.ite h (h.trans (Keeps.offer _ _))

/-- With a front the scheduler is not UNSET, so the array is RUNNING. -/
theorem SchedOk.running {s : State} (h : SchedOk s) {f : Nat} (hf : s.sched.front = some f) : s.array = .running := by
  by_contra ha
  have := h.front.mpr (h.stopped ha)
  rw [hf] at this
  cases this

theorem Keeps.startStacking (s : State) : Keeps s s.startStacking := by
  unfold State.startStacking
  split
  · rename_i f hf
    refine (Keeps.reportLaggards s f _).trans (Keeps.ofSched _ _ fun h => ?_)
    have hf' : (s.reportLaggards f (s.unreadyMembers.map fun e => e.1)).sched.front = some f := by simpa using hf
    refine ⟨⟨by simp [hf], by simp, by simp, ?_, fun ha => absurd (h.running hf') ha⟩, fun g hg => ⟨g, hg, le_rfl⟩⟩
    intro w hw
    cases hw
    exact hf'
  · exact Keeps.refl s

theorem Keeps.startHolding (s : State) (hc : s.sched.state = .collecting) : Keeps s s.startHolding := by
  refine Keeps.ofSched s _ fun h => ?_
  obtain ⟨f, hf⟩ : ∃ f, s.sched.front = some f :=
    Option.ne_none_iff_exists'.mp fun hn => by rw [h.front.mp hn] at hc; cases hc
  have hw : s.sched.window = none := by
    by_contra hn
    rw [h.flight.mp (Option.isSome_iff_ne_none.mpr hn)] at hc
    cases hc
  exact ⟨⟨by simp [hf], by simp, by simp [hw], by simp [hw], fun ha => absurd (h.running hf) ha⟩,
    fun g hg => ⟨g, hg, le_rfl⟩⟩

theorem Keeps.readyOrHold (s : State) (hc : s.sched.state = .collecting) : Keeps s s.readyOrHold :=
  Keeps.ite (Keeps.startStacking s) (Keeps.startHolding s hc)

theorem Keeps.dueStep (s : State) : Keeps s s.dueStep := by
  unfold State.dueStep
  split
  · rename_i h
    exact Keeps.readyOrHold s h.1
  · exact Keeps.refl s

theorem Keeps.frontAt (s : State) (g : Nat) (hr : SchedOk s → s.array = .running)
    (hf : SchedOk s → ∀ f, s.sched.front = some f → f ≤ g) : Keeps s (s.frontAt g) :=
  Keeps.ofSched s _ fun h =>
    ⟨⟨by simp, by simp, by simp, by simp, fun ha => absurd (hr h) ha⟩, fun f h1 => ⟨g, rfl, hf h f h1⟩⟩

theorem Keeps.slipFront (s : State) (p : FPort) (f g : Nat) (hs : s.sched.front = some f) (hg : f ≤ g) :
    Keeps s (s.slipFront p f g) := by
  have ht : (s.truncateTrigger f).sched.front = some f := by simpa using hs
  have h2 := Keeps.frontAt (s.truncateTrigger f) g (fun h => h.running ht) fun _ f1 h1 => by
    rw [ht] at h1
    cases h1
    exact hg
  exact (((((Keeps.truncateTrigger s f).trans h2).trans (Keeps.offer _ _)).trans (Keeps.advanced _ _)).trans
    (Keeps.logError _ _ _ _)).trans (Keeps.considerSwap _)

theorem Keeps.endSlipWait (s : State) (p : FPort) : Keeps s (s.endSlipWait p) :=
  (Keeps.setPort s _ _).trans (Keeps.withdraw _ _)

theorem Keeps.takeSlip (s : State) (r : SlipReq) : Keeps s (s.takeSlip r) := by
  have h := Keeps.endSlipWait s r.port
  unfold State.takeSlip
  dsimp only
  split
  · rename_i f hf
    split
    · rename_i hl
      exact h.trans (Keeps.slipFront _ _ _ _ hf (le_of_lt hl))
    · exact h
  · exact h

theorem Keeps.takeSlips (s : State) : Keeps s s.takeSlips := Keeps.foldl s _ Keeps.takeSlip

theorem Keeps.complete (s : State) (w : Window) (r : WindowResult) (hw : s.sched.window = some w) :
    Keeps s (s.complete w r) := by
  have ht : (s.takeResult r).sched = s.sched := by
    unfold State.takeResult State.windowEntry
    rw [State.carryOut_sched]
    split
    · split
      · simp [State.quietWindow]
      · simp
    · simp
  have hwt : (s.takeResult r).sched.window = some w := ht ▸ hw
  have h2 := Keeps.frontAt (s.takeResult r) (w.window + 1) (fun h => h.running (h.named w hwt)) fun h f1 h1 => by
    rw [h.named w hwt] at h1
    cases h1
    exact Nat.le_succ _
  exact ((((Keeps.takeResult s r).trans h2).trans (Keeps.advanced _ _)).trans (Keeps.considerSwap _)).trans
    (Keeps.takeSlips _)

theorem State.blindWindow_window {s : State} {w : Window} (h : s.blindWindow = some w) : s.sched.window = some w := by
  unfold State.blindWindow at h
  exact (Option.filter_eq_some_iff.mp h).1

theorem Keeps.runBlind (n : Nat) (s : State) : Keeps s (runBlind n s) :=
  runBlind_keeps (P := fun t => Keeps s t)
    (fun t w hw ht => (ht.trans (Keeps.complete t w _ (State.blindWindow_window hw))).trans (Keeps.dueStep _)) n s
    (Keeps.refl s)

theorem Keeps.settle (s : State) : Keeps s s.settle := Keeps.runBlind _ s

theorem Keeps.dueTest (s : State) : Keeps s s.dueTest := (Keeps.dueStep s).trans (Keeps.settle _)

theorem Keeps.holdingTest (s : State) : Keeps s s.holdingTest :=
  Keeps.ite ((Keeps.startStacking s).trans (Keeps.settle _)) (Keeps.refl s)

theorem Keeps.notifiedAll (s : State) (l : List (Fin 256)) {f : State → State} (h : Keeps s (f s)) :
    Keeps s (s.notifiedAll l f) := Keeps.ite h (h.trans (Keeps.holdingTest _))

theorem Keeps.notified (s : State) (j : Fin 256) {f : State → State} (h : Keeps s (f s)) :
    Keeps s (s.notified j f) := Keeps.notifiedAll s [j] h

theorem Keeps.afterSwap (s : State) : Keeps s s.afterSwap := by
  unfold State.afterSwap
  split
  · exact Keeps.dueTest s
  · exact Keeps.holdingTest s
  · exact Keeps.refl s
  · exact Keeps.refl s

theorem Keeps.scheduleReport (s : State) (j : Fin 256) (k : Nat) : Keeps s (s.scheduleReport j k) := by
  unfold State.scheduleReport
  split
  · rename_i hu
    split
    · rename_i ha
      refine (Keeps.ofSched s _ fun h => ?_).trans (Keeps.dueTest _)
      have hn : s.sched.front = none := h.front.mpr hu
      have hw : s.sched.window = none := by
        by_contra hn
        rw [h.flight.mp (Option.isSome_iff_ne_none.mpr hn)] at hu
        cases hu
      have ht : s.sched.timer = none := by
        by_contra hn
        rw [h.timer.mp (Option.isSome_iff_ne_none.mpr hn)] at hu
        cases hu
      exact ⟨⟨by simp, by simp [ht], by simp [hw], by simp [hw], fun hx => absurd ha hx⟩,
        fun f hf => by rw [hn] at hf; cases hf⟩
    · exact Keeps.refl s
  · rename_i hc
    exact Keeps.ite ((Keeps.readyOrHold s hc).trans (Keeps.settle _)) (Keeps.refl s)
  · exact Keeps.ite (Keeps.holdingTest s) (Keeps.refl s)
  · exact Keeps.refl s

theorem Keeps.rejoinTest (s : State) (j : Fin 256) : Keeps s (s.rejoinTest j) := by
  unfold State.rejoinTest
  split
  · exact Keeps.ite (Keeps.notified s j (Keeps.moveFrom _ _ _ _ rfl)) (Keeps.refl s)
  · exact Keeps.refl s

theorem Keeps.holdSlip (s : State) (r : SlipReq) : Keeps s (s.holdSlip r) :=
  (Keeps.setPort s _ _).trans (Keeps.ofSlips _ _)

theorem Keeps.slipAtOnce (s : State) (r : SlipReq) : Keeps s (s.slipAtOnce r) :=
  (Keeps.takeSlip s r).trans (Keeps.dueTest _)

theorem Keeps.holdOffRunsOut (s : State) : Keeps s (holdOffRunsOut s) :=
  Keeps.ite ((Keeps.startStacking s).trans (Keeps.settle _)) (Keeps.refl s)

/-! ## Ingest (03) -/

theorem Keeps.report (s : State) (j : Fin 256) (r : TickReport) : Keeps s (s.report j r) := by
  refine Keeps.each s _ fun t who _ => ?_
  cases who with
  | supervisor => exact Keeps.notified t j (f := fun s => s.supervise j r) (Keeps.supervise t j r)
  | rejoin => exact Keeps.rejoinTest t j
  | scheduler => exact Keeps.scheduleReport t j r.tick

theorem Keeps.condition (s : State) (j : Fin 256) (asn : Nat) (x : Option Int) : Keeps s (s.condition j asn x) := by
  unfold State.condition
  dsimp only
  split
  · rename_i r hr
    have h := fun hc : ChanOk (s.chan j) => hc.takeSample hr s.params asn x
    split
    · rename_i c1 t ht
      rw [ht] at h
      exact (Keeps.setChan s j c1 h).trans (Keeps.report _ _ _)
    · rename_i c1 ht
      rw [ht] at h
      exact Keeps.setChan s j c1 h
  · exact Keeps.refl s

theorem Keeps.restartAt (s : State) (j : Fin 256) (asn : Nat) : Keeps s (s.restartAt j asn) :=
  Keeps.notified s j (Keeps.restartChan s j asn)

theorem Keeps.sampleIn (s : State) (pk : Packet) (j : Fin 256) (asn : Nat) (x : Option Int) :
    Keeps s (s.sampleIn pk j asn x) := by
  have h := (Keeps.restartAt s j asn).trans (Keeps.condition _ j asn x)
  unfold State.sampleIn
  split
  · exact Keeps.refl s
  · exact Keeps.ite h (Keeps.refl s)
  · exact Keeps.ite h (Keeps.refl s)
  all_goals exact Keeps.condition s j asn x

theorem Keeps.restartAll (s : State) (run : List (Fin 256)) (asn : Nat) : Keeps s (s.restartAll run asn) :=
  Keeps.each s run (f := fun s j => if (s.chan j).state.conditioned then s.restartChan j asn else s)
    fun t j _ => Keeps.ite (Keeps.restartChan t j asn) (Keeps.refl t)

theorem Keeps.restartRun (s : State) (pk : Packet) : Keeps s (s.restartRun pk) := by
  have h := Keeps.notifiedAll s pk.run (f := fun s => s.restartAll pk.run pk.asn) (Keeps.restartAll s pk.run pk.asn)
  unfold State.restartRun
  split <;> first | exact h | exact Keeps.refl s

theorem Keeps.deliver (s : State) (pk : Packet) (body : List Byte) : Keeps s (s.deliver pk body) :=
  deliverLoop_keeps (P := fun t => Keeps s t) pk body (fun t o ht => ht.trans (Keeps.ofOrder t o))
    (fun t j asn x ht => ht.trans (Keeps.sampleIn t pk j asn x)) _ _ _ (Keeps.refl _)

theorem Keeps.endHandling (s : State) (p : FPort) : Keeps s (s.endHandling p) := Keeps.setPort s _ _

theorem Keeps.discardFrame (s : State) (p : FPort) (body : List Byte) (k : ErrKind) :
    Keeps s (s.discardFrame p body k) := (Keeps.logError s _ _ _).trans (Keeps.endHandling _ _)

theorem Keeps.deliverHandled (s : State) (p : FPort) : Keeps s (s.deliverHandled p) := by
  unfold State.deliverHandled
  split
  · exact (Keeps.deliver s _ _).trans (Keeps.endHandling _ _)
  · exact Keeps.refl s
  · exact Keeps.refl s

theorem Keeps.limitThenDeliver (s : State) (p : FPort) (pk : Packet) : Keeps s (s.limitThenDeliver p pk) :=
  Keeps.ite (Keeps.ite (Keeps.holdSlip s _) ((Keeps.slipAtOnce s _).trans (Keeps.deliverHandled _ _)))
    (Keeps.deliverHandled _ _)

theorem Keeps.checkSequence (s : State) (p : FPort) (g : Fin 16) (h : SamplesHeader) (body : List Byte) :
    Keeps s (s.checkSequence p g h body) := by
  unfold State.checkSequence
  split
  · exact Keeps.ite (Keeps.refl s) (Keeps.logError _ _ _ _)
  · exact Keeps.refl s

theorem Keeps.logClass (s : State) (p : FPort) (cls : PacketClass) (body : List Byte) :
    Keeps s (s.logClass p cls body) := by
  unfold State.logClass
  split
  · exact Keeps.logError _ _ _ _
  · exact Keeps.refl s

/-- The map of the hubs with one entry's expectations changed. -/
theorem HubsOk.expect {hs : Vector HubEntry 16} (h : HubsOk hs) (g : Fin 16) (e : HubEntry)
    (hv : e.valid = true → (vget hs g).valid = true) (hp : e.port = (vget hs g).port)
    (hb : e.base = (vget hs g).base) (hc : e.count = (vget hs g).count) : HubsOk (vset hs g e) := by
  have key : ∀ i, ((vget (vset hs g e) i).valid = true → (vget hs i).valid = true) ∧
      (vget (vset hs g e) i).port = (vget hs i).port ∧ (vget (vset hs g e) i).base = (vget hs i).base ∧
      (vget (vset hs g e) i).count = (vget hs i).count := by
    intro i
    rw [vget_vset]
    split
    · rename_i hi
      subst hi
      exact ⟨hv, hp, hb, hc⟩
    · exact ⟨id, rfl, rfl, rfl⟩
  constructor
  · intro i hi
    obtain ⟨k1, k2, k3, k4⟩ := key i
    rw [k2, k3, k4]
    exact h.inside i (k1 hi)
  · intro i j hij hi hj
    obtain ⟨a1, -, a3, a4⟩ := key i
    obtain ⟨b1, -, b3, b4⟩ := key j
    have := h.apart i j hij (a1 hi) (b1 hj)
    unfold HubEntry.shares at this ⊢
    rw [a3, a4, b3, b4]
    exact this

theorem Keeps.takePacket (s : State) (p : FPort) (g : Fin 16) (h : SamplesHeader) (pk : Packet) (body : List Byte) :
    Keeps s (s.takePacket p g h pk body) :=
  (Keeps.ofHubs s
    (vset s.hubs g
      { s.hub g with expSeq := some ((h.sequence + 1) % 65536), expAsn := some (h.asn + h.samples) })
    fun hh => hh.expect g _ id rfl rfl rfl).trans (Keeps.setPort _ _ _)

theorem Keeps.continuity (s : State) (p : FPort) (g : Fin 16) (h : SamplesHeader) (body : List Byte) :
    Keeps s (s.continuity p g h body) := by
  have h1 := (Keeps.checkSequence s p g h body).trans
    (Keeps.logClass _ p (classOf (s.hub g).expAsn (s.param .gapFill) h.asn) body)
  unfold State.continuity
  dsimp only
  exact Keeps.ite (h1.trans (Keeps.endHandling _ _))
    (((h1.trans (Keeps.takePacket _ _ _ _ _ _)).trans (Keeps.restartRun _ _)).trans (Keeps.limitThenDeliver _ _ _))

theorem Keeps.handleFrame (s : State) (p : FPort) : Keeps s (s.handleFrame p) := by
  unfold State.handleFrame
  split
  · split
    · exact Keeps.discardFrame _ _ _ _
    · split
      · exact Keeps.discardFrame _ _ _ _
      · exact Keeps.ite (Keeps.discardFrame _ _ _ _) (Keeps.ite (Keeps.continuity _ _ _ _ _) (Keeps.endHandling _ _))
  · exact Keeps.refl s
  · exact Keeps.refl s

theorem Keeps.promote (s : State) (p : FPort) : Keeps s (s.promote p) := by
  unfold State.promote
  dsimp only
  split
  · exact (Keeps.setPort s _ _).trans (Keeps.handleFrame _ _)
  · exact Keeps.refl s
  · exact Keeps.refl s

theorem Keeps.offerFrame (s : State) (p : FPort) (body : List Byte) : Keeps s (s.offerFrame p body) := by
  unfold State.offerFrame
  dsimp only
  split
  · exact ((Keeps.setPort s _ _).trans (Keeps.handleFrame _ _)).trans (Keeps.promote _ _)
  · exact Keeps.setPort s _ _
  · exact Keeps.logError _ _ _ _

theorem Keeps.deliverReleased (s : State) (p : FPort) : Keeps s (s.deliverReleased p) :=
  Keeps.ite (Keeps.refl s) ((Keeps.deliverHandled s p).trans (Keeps.promote _ _))

theorem Keeps.stackCompletes (s : State) : Keeps s (stackCompletes s) := by
  unfold Machine.stackCompletes
  split
  · rename_i w hw
    exact ((Keeps.complete s w _ hw).trans (Keeps.dueTest _)).trans (Keeps.foldl _ _ Keeps.deliverReleased)
  · exact Keeps.refl s

/-! ## Transmitting (10) -/

theorem CtlOk.sent {c : CPort} {x y : CtlPort} (h : CtlOk c x) (hq : y.queue = x.queue)
    (hr : y.refusals.Sublist x.refusals) (hp : y.pending.Sublist x.pending) (hm : y.mask = x.mask)
    (hs : y.resets = x.resets) : CtlOk c y :=
  ⟨hq ▸ h.queue, le_trans hr.length_le h.refusals, h.once.sublist hp,
    fun k hk => hm ▸ h.unmasked k (hp.subset hk), fun k hk => h.received k (hp.subset hk), hs ▸ h.resets⟩

theorem Keeps.clearChanged (s : State) : Keeps s s.clearChanged :=
  Keeps.ofChannels s _ fun j hj => by
    rw [vget_vmap]
    exact hj.of_record hj.record rfl

theorem Keeps.sendNotice (s : State) (c : CPort) (k : NoticeKind) (rest : List NoticeKind)
    (h : rest.Sublist (s.ctl c).pending) : Keeps s (s.sendNotice c k rest) := by
  have h1 := Keeps.setCtl s c (CtlPort.send { s.ctl c with pending := rest }
    ([0x04] ++ bytesOf 1 k.code ++ s.noticePayload c k) false)
    fun hc => hc.sent rfl (List.Sublist.refl _) h rfl rfl
  exact Keeps.ite (h1.trans (Keeps.clearChanged _)) h1

theorem Keeps.transmit (s : State) (c : CPort) : Keeps s (s.transmit c) := by
  have reply : ∀ rp, Keeps s (s.setCtl c ((s.ctl c).sendReply rp)) := fun rp =>
    Keeps.setCtl s c _ fun hc => hc.sent rfl (List.Sublist.refl _) (List.Sublist.refl _) rfl rfl
  have refusal : ∀ r rest, (s.ctl c).refusals = r :: rest → Keeps s (s.setCtl c ((s.ctl c).sendRefusal r rest)) :=
    fun r rest hr => Keeps.setCtl s c _ fun hc =>
      hc.sent rfl (hr ▸ List.sublist_cons_self r rest) (List.Sublist.refl _) rfl rfl
  unfold State.transmit
  dsimp only
  refine Keeps.ite (Keeps.refl s) ?_
  split
  · rename_i hr
    exact Keeps.ite (reply _) (refusal _ _ ‹_›)
  · exact reply _
  · exact refusal _ _ ‹_›
  · rename_i hp
    exact Keeps.sendNotice s c _ _ (hp ▸ List.sublist_cons_self _ _)
  · exact Keeps.refl s

theorem Keeps.transmitBoth (s : State) : Keeps s s.transmitBoth := (Keeps.transmit s _).trans (Keeps.transmit _ _)

end Sys2Proof.Machine
end

