-- ==== Sys2Proof/Laws/Requests.lean ====
section
/-!
SUPPORT. The taking of a request, said once: which owner a request command calls, what it answers when the checks ahead of
the owner pass, when one of them fails, and when the command's request does not wait on the port.
-/

namespace Sys2Proof.Machine

/-- The owner that a request command calls. -/
def ownerOf (c : CPort) : Req → List Byte → State → Response
  | .identify => identifyOwner | .status => statusOwner | .paramGet => paramGetOwner | .paramSet => paramSetOwner
  | .noticeMaskSet => noticeMaskSetOwner c | .noticeMaskClear => noticeMaskClearOwner c
  | .arrayStart => arrayStartOwner | .arrayStop => arrayStopOwner
  | .channelConfig => channelConfigOwner | .channelEnable => channelEnableOwner
  | .channelDisable => channelDisableOwner | .channelQuery => channelQueryOwner
  | .channelAlarmClear => channelAlarmClearOwner
  | .portEnable => portEnableOwner | .portDisable => portDisableOwner
  | .hubMapSet => hubMapSetOwner | .hubMapClear => hubMapClearOwner | .hubMapGet => hubMapGetOwner
  | .errorReport => errorReportOwner | .errorConfig => errorConfigOwner | .errorClear => errorClearOwner
  | .gridSet => gridSetOwner | .gridGet => gridGetOwner | .bankWrite => bankWriteOwner | .bankRead => bankReadOwner
  | .bankClear => bankClearOwner | .bankActivate => bankActivateOwner | .bankAbort => bankAbortOwner
  | .zoneSet => zoneSetOwner | .zoneGet => zoneGetOwner | .eventFetch => eventFetchOwner | .eventAck => eventAckOwner
  | .alertStatus => alertStatusOwner | .alertAck => alertAckOwner c | .injectionSet => injectionSetOwner
  | .journalRead => journalReadOwner | .journalRelease => journalReleaseOwner | .journalClear => journalClearOwner

/-- Every request command is the taking of its request by its owner. -/
theorem exec_instr (req : Req) (c : CPort) (s : State) :
    exec (req.instr c) s = answerRequest c req (ownerOf c req) s := by
  cases req <;> rfl

/-- A request that waits is taken with the checks ahead of its owner. -/
theorem takeRequest_asks {s : State} {c : CPort} {req : Req} {tag : Byte} {payload : List Byte}
    (h : Asks s c req tag payload) (owner : List Byte → State → Response) :
    takeRequest c req owner s =
      (checked c req payload owner (s.popRequest c)).state.putReply c
        ⟨tag, req.code, (checked c req payload owner (s.popRequest c)).status,
          (checked c req payload owner (s.popRequest c)).payload⟩ := by
  simp [takeRequest, h.oldest]

theorem whole_out {f : State → State} {s : State} (h : s.resetAsserted = false) : whole f s = (f s).transmitBoth := by
  simp [whole, h]

/-- The answer to a request that waits. -/
theorem exec_asks {s : State} {c : CPort} {req : Req} {tag : Byte} {payload : List Byte}
    (h : Asks s c req tag payload) :
    exec (req.instr c) s =
      .next ((checked c req payload (ownerOf c req) (s.popRequest c)).state.replied c req tag
        (checked c req payload (ownerOf c req) (s.popRequest c)).status
        (checked c req payload (ownerOf c req) (s.popRequest c)).payload) := by
  rw [exec_instr, answerRequest, answer, whole_out h.outOfReset, takeRequest_asks h]
  rfl

/-- The checks ahead of the owner passed. -/
theorem checked_passes {s : State} {c : CPort} {req : Req} {payload : List Byte} (h : Passes s c req payload)
    (owner : List Byte → State → Response) :
    checked c req payload owner (s.popRequest c) = owner payload (s.popRequest c) := by
  have hr : ¬(s.array = .initializing ∧ (!req.duringInit) = true) := fun hh => by simp [h.ready hh.1] at hh
  unfold checked
  rw [if_neg (by simp [h.allowed]), if_neg (by simp [h.length]), State.popRequest_array, if_neg hr]

/-- The answer to a request that is served: its owner's. -/
theorem exec_served {s : State} {c : CPort} {req : Req} {tag : Byte} {payload : List Byte}
    (h : Served s c req tag payload) {r : Response} (hr : ownerOf c req payload (s.popRequest c) = r) :
    exec (req.instr c) s = .next (r.state.replied c req tag r.status r.payload) := by
  rw [exec_asks h.asks, checked_passes h.passes, hr]

end Sys2Proof.Machine
end

