-- ==== Sys2Proof/Laws/Scheduler.lean ====
section
/-!
SUPPORT. Said once for the statements about the scheduler and the delivery: a change reported to the scheduler, the free
orders as permutations, and the order in which a delivery gives the channels their samples.
-/

namespace Sys2Proof.Machine

/-! ## A change reported to the scheduler -/

theorem State.notified_eq (s : State) (j : Fin 256) (f : State → State) :
    s.notified j f = if (f s).isMember j = s.isMember j then f s else (f s).holdingTest := by
  simp only [State.notified, State.notifiedAll, List.all_cons, List.all_nil, Bool.and_true, beq_iff_eq]

/-- Outside HOLDING a change reported to the scheduler is the change. -/
theorem State.notifiedAll_of_not_holding {s : State} (l : List (Fin 256)) {f : State → State}
    (h : (f s).sched.state ≠ .holding) : s.notifiedAll l f = f s := by
  simp [State.notifiedAll, State.holdingTest, h]

theorem State.notified_of_not_holding {s : State} (j : Fin 256) {f : State → State}
    (h : (f s).sched.state ≠ .holding) : s.notified j f = f s := State.notifiedAll_of_not_holding [j] h

/-- Members handled in a free order: some order of the list, and what is left of the order tape. -/
theorem State.each_eq {α : Type} (s : State) (l : List α) (f : State → α → State) :
    ∃ (r : List α) (o : List Nat), r.Perm l ∧ s.each l f = r.foldl f { s with order := o } :=
  ⟨_, _, shuffle_perm _ _ _, rfl⟩

/-- The channels that satisfy a test, in ascending order. -/
theorem State.channelsWith_eq (s : State) (test : Channel → Bool) :
    s.channelsWith test = (List.finRange 256).filter fun j => test (s.chan j) := by
  simp only [State.channelsWith, enumFin_eq_map, List.filter_map, List.map_map]
  exact List.map_id _

theorem State.mem_channelsWith {s : State} {test : Channel → Bool} {j : Fin 256} :
    j ∈ s.channelsWith test ↔ test (s.chan j) = true := by
  simp [State.channelsWith_eq]

theorem State.nodup_channelsWith (s : State) (test : Channel → Bool) : (s.channelsWith test).Nodup := by
  rw [State.channelsWith_eq]
  exact (List.nodup_finRange 256).filter _

/-! ## The order of a delivery (03, R63) -/

/-- A delivery's loop with fuel enough gives the channels of its work list their samples in some interleaving that keeps
each channel's samples in ASN order. -/
theorem deliverLoop_order (pk : Packet) (body : List Byte) (n : Nat) : ∀ (work : List (Fin 256 × Nat)) (s : State),
    (work.map fun e => e.1).Nodup → (∀ e ∈ work, e.2 < pk.asn + pk.samples) →
    (work.map fun e => pk.asn + pk.samples - e.2).sum ≤ n →
    ∃ w : List ((Fin 256 × Nat) × List Nat),
      (∀ j, (w.map fun e => e.1).filter (fun e => e.1 == j) =
        (work.filter fun e => e.1 == j).flatMap fun e =>
          (List.range (pk.asn + pk.samples - e.2)).map fun i => (j, e.2 + i)) ∧
      deliverLoop pk body n work s = w.foldl (fun t e => ({ t with order := e.2 } : State).sampleIn pk e.1.1 e.1.2
        (pk.sample? body e.1.1 e.1.2)) s := by
  induction n with
  | zero =>
    intro work s hd hlt hsum
    match work with
    | [] => exact ⟨[], by simp, rfl⟩
    | e :: r => have := hlt e (by simp); simp at hsum; omega
  | succ n ih =>
    intro work s hd hlt hsum
    match work with
    | [] => exact ⟨[], by simp, rfl⟩
    | x :: r =>
      have hp : ∃ pick : Nat × List Nat, pick.1 < (x :: r).length ∧
          (if (x :: r).length = 1 then (0, s.order) else choose s.order (x :: r).length) = pick := by
        refine ⟨_, ?_, rfl⟩
        split
        · simp
        · exact choose_lt _ (by simp)
      obtain ⟨pick, hlen, hpick⟩ := hp
      simp only [deliverLoop, hpick]
      generalize hw : x :: r = work at *
      have hsplit : work = work.take pick.1 ++ work[pick.1] :: work.drop (pick.1 + 1) := by
        rw [List.getElem_cons_drop, List.take_append_drop]
      rw [List.getD_eq_getElem _ _ hlen]
      generalize he : work[pick.1] = e at *
      generalize ha : work.take pick.1 = a at *
      generalize hb : work.drop (pick.1 + 1) = b at *
      have hset : ∀ y, work.set pick.1 y = a ++ y :: b := by
        intro y; rw [List.set_eq_take_append_cons_drop, if_pos hlen, ha, hb]
      have herase : work.eraseIdx pick.1 = a ++ b := by rw [List.eraseIdx_eq_take_drop_succ, ha, hb]
      rw [hset, herase]
      rw [hsplit] at hd hlt hsum
      have hea : e.2 < pk.asn + pk.samples := hlt e (by simp)
      have hne : ∀ y, y ∈ a ∨ y ∈ b → y.1 ≠ e.1 := by
        rw [List.map_append, List.map_cons, List.nodup_append] at hd
        obtain ⟨_, h2, h3⟩ := hd
        rintro y (hy | hy) h
        · exact h3 y.1 (List.mem_map_of_mem hy) e.1 (by simp) h
        · rw [List.nodup_cons] at h2
          exact h2.1 (h ▸ List.mem_map_of_mem hy)
      have fa : a.filter (fun y => y.1 == e.1) = [] := by
        rw [List.filter_eq_nil_iff]; intro y hy; simpa using hne y (.inl hy)
      have fb : b.filter (fun y => y.1 == e.1) = [] := by
        rw [List.filter_eq_nil_iff]; intro y hy; simpa using hne y (.inr hy)
      rw [hsplit]
      by_cases hx : e.2 + 1 < pk.asn + pk.samples
      · rw [if_pos hx]
        obtain ⟨w, h1, h2⟩ := ih (a ++ (e.1, e.2 + 1) :: b)
          (({ s with order := pick.2 } : State).sampleIn pk e.1 e.2 (pk.sample? body e.1 e.2))
          (by simpa using hd)
          (by
            intro y hy
            simp only [List.mem_append, List.mem_cons] at hy
            rcases hy with hy | hy | hy
            · exact hlt y (by simp [hy])
            · subst hy; exact hx
            · exact hlt y (by simp [hy]))
          (by simp at hsum ⊢; omega)
        refine ⟨(e, pick.2) :: w, ?_, by rw [h2]; rfl⟩
        intro j
        have hj := h1 j
        simp only [List.map_cons, List.filter_cons, List.filter_append, hj]
        by_cases hej : e.1 = j
        · subst hej
          simp only [fa, fb, beq_self_eq_true, if_true, List.nil_append, List.flatMap_cons, List.flatMap_nil,
            List.append_nil]
          have : pk.asn + pk.samples - e.2 = (pk.asn + pk.samples - (e.2 + 1)) + 1 := by omega
          rw [this, List.range_succ_eq_map]
          simp only [List.map_cons, List.map_map, List.cons.injEq, List.map_inj_left]
          refine ⟨by simp, fun i _ => ?_⟩
          simp only [Function.comp_apply, Prod.mk.injEq, true_and]
          omega
        · have : (e.1 == j) = false := by simpa using hej
          simp only [this, Bool.false_eq_true, if_false]
      · rw [if_neg hx]
        obtain ⟨w, h1, h2⟩ := ih (a ++ b)
          (({ s with order := pick.2 } : State).sampleIn pk e.1 e.2 (pk.sample? body e.1 e.2))
          (hd.sublist (by simp))
          (by
            intro y hy
            simp only [List.mem_append] at hy
            exact hlt y (by simp; tauto))
          (by simp at hsum ⊢; omega)
        refine ⟨(e, pick.2) :: w, ?_, by rw [h2]; rfl⟩
        intro j
        have hj := h1 j
        simp only [List.map_cons, List.filter_cons, List.filter_append, hj]
        by_cases hej : e.1 = j
        · subst hej
          simp only [fa, fb, beq_self_eq_true, if_true, List.nil_append, List.flatMap_cons, List.flatMap_nil,
            List.append_nil]
          have : pk.asn + pk.samples - e.2 = 1 := by omega
          rw [this]; simp
        · have : (e.1 == j) = false := by simpa using hej
          simp only [this, Bool.false_eq_true, if_false]

theorem Packet.mem_run (pk : Packet) (j : Fin 256) :
    j ∈ pk.run ↔ pk.base ≤ j.val ∧ j.val < pk.base + pk.count := by
  simp only [Packet.run, List.mem_filterMap, List.mem_range]
  constructor
  · rintro ⟨i, hi, h⟩
    split at h
    · simp only [Option.some.injEq] at h; rw [← h]; simp; omega
    · cases h
  · rintro ⟨h1, h2⟩
    refine ⟨j.val - pk.base, by omega, ?_⟩
    have : pk.base + (j.val - pk.base) = j.val := by omega
    simp only [this, j.isLt, dite_true]

theorem Packet.nodup_run (pk : Packet) : pk.run.Nodup := by
  refine List.Nodup.filterMap ?_ List.nodup_range
  intro a b c h1 h2
  simp only [Option.mem_def] at h1 h2
  split at h1 <;> split at h2 <;> simp_all
  have := h1.trans h2.symm
  simp at this; omega

/-- A delivery gives every channel of its run the packet's samples in ASN order, and no other channel any. -/
theorem State.deliver_eq (s : State) (pk : Packet) (body : List Byte) (h : pk.start < pk.asn + pk.samples) :
    ∃ w : List ((Fin 256 × Nat) × List Nat),
      (∀ j, (w.map fun e => e.1).filter (fun e => e.1 == j) =
        if pk.base ≤ j.val ∧ j.val < pk.base + pk.count then
          (List.range (pk.asn + pk.samples - pk.start)).map fun i => (j, pk.start + i)
        else []) ∧
      s.deliver pk body = w.foldl (fun t e => ({ t with order := e.2 } : State).sampleIn pk e.1.1 e.1.2
        (pk.sample? body e.1.1 e.1.2)) s := by
  obtain ⟨w, h1, h2⟩ := deliverLoop_order pk body (pk.count * (pk.asn + pk.samples - pk.start))
    (pk.run.map fun j => (j, pk.start)) s
    (by simpa [Function.comp_def] using pk.nodup_run) (by simpa using fun _ _ => h)
    (by
      simp only [List.map_map, Function.comp_def, List.map_const', List.sum_replicate, smul_eq_mul]
      exact Nat.mul_le_mul_right _ ((List.length_filterMap_le _ _).trans (by simp)))
  refine ⟨w, fun j => ?_, h2⟩
  rw [h1 j, List.filter_map]
  have : ((fun e : Fin 256 × Nat => e.1 == j) ∘ fun j => (j, pk.start)) = (· == j) := rfl
  rw [this, List.filter_beq, pk.nodup_run.count]
  simp only [pk.mem_run j]
  split <;> simp

end Sys2Proof.Machine
end

