-- ==== Sys2Proof/WellFormed.lean ====
section
/-!
DEFINITION. What a command's operands must satisfy to be the event the row names. The machine gives a meaning to every
command, well-formed or not: the bytes a line brings are taken as R46 and R180 say, whatever they are.
-/

namespace Sys2Proof

/-- The operands spell the row's event: a refused length is 0 or above the port's largest body (R46, R180), and the bytes
that complete a frame are at least one and at most the length, the largest body and the CRC. -/
def Instr.wellFormed : Instr → Bool
  | .fieldLengthRefused _ len => len.toNat == 0 || decide (Config.fieldMaxBody < len.toNat)
  | .controlLengthRefused _ len => len.toNat == 0 || decide (Config.controlMaxBody < len.toNat)
  | .fieldFrameComplete _ bytes =>
      !bytes.isEmpty && decide (bytes.length ≤ Config.fieldMaxBody + 4)
  | .controlFrameReceived _ bytes =>
      !bytes.isEmpty && decide (bytes.length ≤ Config.controlMaxBody + 4)
  | .resetAsserted | .resetReleased | .initializationComplete | .frameStart _ | .linkDown _ | .holdOffExpiry
  | .stackCompletion | .validationPassed | .validationFailed | .dwellExpiry | .transmissionEnd _ | .portReset _
  | .breakEnd _ | .unknownRequest _ | .identify _ | .status _ | .paramGet _ | .paramSet _ | .noticeMaskSet _
  | .noticeMaskClear _ | .arrayStart _ | .arrayStop _ | .channelConfig _ | .channelEnable _ | .channelDisable _
  | .channelQuery _ | .channelAlarmClear _ | .portEnable _ | .portDisable _ | .hubMapSet _ | .hubMapClear _
  | .hubMapGet _ | .errorReport _ | .errorConfig _ | .errorClear _ | .gridSet _ | .gridGet _ | .bankWrite _
  | .bankRead _ | .bankClear _ | .bankActivate _ | .bankAbort _ | .zoneSet _ | .zoneGet _ | .eventFetch _
  | .eventAck _ | .alertStatus _ | .alertAck _ | .injectionSet _ | .journalRead _ | .journalRelease _
  | .journalClear _ | .controlFrameStart _ => true

end Sys2Proof
end

