-- ==== Sys2Proof/Tests/Slice0.lean ====
section
/-!
SUPPORT. The model's own tests: a smoke test of every check of `Instr.wellFormed`, the manual's worked cases, and for each
statement with hypotheses the states and operands that meet them, clause by clause and at the ends of their ranges.
-/

namespace Sys2Proof.Machine.Slice0Test

set_option Elab.async false

/-! ## Well-formed commands -/

theorem test_wellFormed_fieldLength :
    (Instr.fieldLengthRefused 0 0).wellFormed = true ∧ (Instr.fieldLengthRefused 0 8193).wellFormed = true ∧
      (Instr.fieldLengthRefused 0 1).wellFormed = false ∧ (Instr.fieldLengthRefused 0 8192).wellFormed = false := by decide

theorem test_wellFormed_controlLength :
    (Instr.controlLengthRefused .plant 1025).wellFormed = true ∧
      (Instr.controlLengthRefused .plant 1024).wellFormed = false := by decide

theorem test_wellFormed_fieldFrame :
    (Instr.fieldFrameComplete 3 [1]).wellFormed = true ∧ (Instr.fieldFrameComplete 3 []).wellFormed = false ∧
      (Instr.fieldFrameComplete 3 (List.replicate 8197 0)).wellFormed = false := by decide +kernel

theorem test_wellFormed_controlFrame :
    (Instr.controlFrameReceived .survey [1]).wellFormed = true ∧
      (Instr.controlFrameReceived .survey []).wellFormed = false ∧
      (Instr.controlFrameReceived .survey (List.replicate 1029 0)).wellFormed = false := by decide +kernel

/-! ## Spelling (12) -/

/-- 12.2: the check value of the CRC over "123456789". -/
theorem test_crc_check : crc [0x31, 0x32, 0x33, 0x34, 0x35, 0x36, 0x37, 0x38, 0x39] = 0x29B1#16 := by decide +kernel

/-- R198: big-endian fields, two's complement. -/
theorem test_fields : bytesOf 6 4000130 = [0, 0, 0, 0x3D, 0x09, 0x82] ∧ fieldInt [0x80, 0, 0] 0 3 = -8388608 ∧
    bytesOfInt 3 (-300) = [0xFF, 0xFE, 0xD4] ∧ field [1, 0, 0xFF] 1 2 = 255 := by decide

/-- 12.2: a REQUEST frame received and a frame with its last bit turned over. -/
theorem test_frames :
    feed 1024 (.hunting false) (linkFrame [0x02, 9, 1]) = ([.start, .good [0x02, 9, 1]], .hunting false) ∧
    feed 1024 (.hunting false) ((linkFrame [0x02, 9, 1]).dropLast) =
      ([.start], .receiving (((linkFrame [0x02, 9, 1]).drop 2).dropLast)) ∧
    (feed 1024 (.hunting false) ((linkFrame [0x02, 9, 1]).dropLast ++ [0])).1 = [.start, .badCrc 3 [0x02, 9, 1]] := by
  decide +kernel

/-! ## Conditioning (01) -/

/-- A channel taking a list of samples from an ASN on. -/
def takes (c : Channel) (ps : Params) : Nat → List (Option Int) → Channel
  | _, [] => c
  | asn, x :: xs =>
    match c.cond with
    | some r => takes (c.takeSample ps r asn x).1 ps (asn + 1) xs
    | none => c

/-- The worked case of 1.4: decimation across a restart, a tie and a filled sample. -/
theorem test_decimation :
    let c := Channel.powerOn.restart 7 1000002
    let d := takes c Params.powerOn 1000002 [some 120, some (-300)]
    let e := takes d Params.powerOn 1000004 [some (-100), some 180, some (-100)]
    let f := takes e Params.powerOn 1000007 [none]
    (c.cond.map fun r => r.restartTick) = some 250000 ∧
    (d.cond.bind fun r => r.sta) = some (256 * 420) ∧ Store.read d.ring (250000 % 1024) = some ⟨250000, 0, .neg⟩ ∧
    (e.cond.bind fun r => r.part) = some ⟨250001, 280, .pos, 180⟩ ∧
    Store.read f.ring (250001 % 1024) = some ⟨250001, 0, .pos⟩ ∧ (f.cond.bind fun r => r.completeThrough) = some 250001 := by
  decide +kernel

/-- STA, LTA and previous c over the ticks of a list of peaks. -/
def averages (ps : Params) (r : CondRec) : List Nat → List (Option Nat × Option Nat × Nat)
  | [] => []
  | a :: as =>
    let r2 := r.complete ps Channel.powerOn.cfg ⟨0, a, .pos, 0⟩
    (r2.sta, r2.lta, r2.prevC) :: averages ps r2 as

/-- The worked case of 1.8: the arithmetic of an arrival. -/
theorem test_arrival :
    averages (Params.powerOn.put .kl 6) ⟨some 0, none, some 256000, some 256000, 0, 0, 0, none, none⟩
      [9000, 9000, 1000, 1000, 1000, 1000, 1000] =
      [(some 768000, some 288000, 26), (some 1152000, some 288000, 48), (some 928000, some 288000, 35),
       (some 760000, some 288000, 26), (some 634000, some 288000, 19), (some 539500, some 288000, 13),
       (some 468625, some 287500, 10)] := by decide +kernel

/-- The limit cases of 1.8. -/
theorem test_limit_cases :
    average 3 0 2 = 2 ∧ average 2 0 2 = 1 ∧ average 1 0 2 = 0 ∧ average 0 0 2 = 0 ∧ charFn 64 20000 1000 = 3 ∧
      ratio 64 4294967040 0 = 255 ∧ charFn 64 4294967040 0 = 239 ∧ charFn 64 300000 300000 = 0 ∧
      charFn 64 318749 300000 = 0 ∧ charFn 64 318750 300000 = 1 := by decide +kernel

/-! ## Stacking (06) -/

/-- A ring holding one tick. -/
def oneSlot (t c : Nat) : Channel := { Channel.powerOn with ring := [(t % 1024, ⟨t, c, .pos⟩)] }

/-- The three contributors of 6.5 with the bank entries of voxel 1,234. -/
def stack65 : State :=
  { State.reset with
    channels := vset (vset (vset State.reset.channels 12 (oneSlot 640016 26)) 30 (oneSlot 640020 48)) 51
      (oneSlot 640027 35)
    banks := { BankCtl.powerOn with
      active := [(bankKey 1234 12, 10), (bankKey 1234 30, 14), (bankKey 1234 51, 21)] } }

/-- The worked case of 6.5: 614, and 307 without channel 30. -/
theorem test_brightness :
    stack65.brightness [(12, 4), (30, 8), (51, 8)] 1234 640006 = 614 ∧
    (stack65.setChan 30 Channel.powerOn).brightness [(12, 4), (30, 8), (51, 8)] 1234 640006 = 307 := by decide +kernel

/-- The worked case of 6.9: the targets of the two slips. -/
theorem test_slip_targets : slipTarget 640750 = 40004 ∧ slipTarget 640800 = 40007 ∧ slipTarget 695 = 0 ∧ slipTarget 696 = 1 := by
  decide

/-- Two slip requests taken in a given order from a front of 40,001. -/
def slips69 (l : List SlipReq) : State :=
  State.takeSlips { State.reset with array := .running, sched := ⟨some 40001, .collecting, none, none, l⟩ }

/-- The worked case of 6.9: both orders leave the front at 40,007, with two entries or one. -/
theorem test_two_slips :
    ((slips69 [⟨0, 640750⟩, ⟨2, 640800⟩]).sched.front = some 40007 ∧
      (slips69 [⟨0, 640750⟩, ⟨2, 640800⟩]).journal.entries = [⟨1, .slip 40001 3⟩, ⟨2, .slip 40004 3⟩]) ∧
    ((slips69 [⟨2, 640800⟩, ⟨0, 640750⟩]).sched.front = some 40007 ∧
      (slips69 [⟨2, 640800⟩, ⟨0, 640750⟩]).journal.entries = [⟨1, .slip 40001 6⟩]) := by decide +kernel

/-! ## Field packets (03) -/

/-- A sample packet of one channel whose samples rise by 10. -/
def packet (hub sequence asn samples : Nat) : List Byte :=
  bytesOf 1 1 ++ bytesOf 1 hub ++ [0] ++ bytesOf 2 sequence ++ bytesOf 6 asn ++ bytesOf 1 samples ++ [1, 0, 0, 0] ++
    (List.range samples).flatMap fun i => bytesOfInt 3 (10 * i)

/-- FP2 with hub 6 on channel 128, in a given state, expecting sequence 201 at ASN 4,000,010. -/
def hub6 (st : ChanState) (r : Option CondRec) : State :=
  ((State.setHub { State.reset with array := .running } 6 ⟨true, 2, 128, 1, some 201, some 4000010⟩).setPort 2
    { FieldPort.powerOn with state := .up, linkTimer := some 0, rx := .receiving [] }).setChan 128
    { Channel.powerOn with state := st, cond := r }

/-- The state after a command, for reading in a test. -/
def after (o : Host.Outcome State Fault Refusal) : State :=
  match o with
  | .next s => s
  | .fault _ | .refused _ => State.reset

/-- A settling record with the partial tick of 3.9 after its step 1. -/
def rec128 : CondRec := ⟨some 90, some ⟨1000002, 10, .pos, 90⟩, some 1000, some 1000, 0, 999990, 9, none, some 1000001⟩

/-- The worked case of 3.9, step 3: a gap of ten samples filled, SEQUENCE logged, ticks complete to 1,000,006. -/
theorem test_filled_gap :
    let t := after (exec (.fieldFrameComplete 2 ((linkFrame (packet 6 202 4000020 10)).drop 2)) (hub6 .settling (some rec128)))
    ((t.hub 6).expSeq = some 203 ∧ (t.hub 6).expAsn = some 4000030) ∧
    (((t.port 2).log.kind .sequence).count = 1 ∧ ((t.port 2).log.kind .timeJump).count = 0) ∧
    (t.chan 128).completeThrough = some 1000006 ∧
    ((t.chan 128).cond.bind fun r => r.part) = some ⟨1000007, 10, .pos, 90⟩ := by decide +kernel

/-- The worked case of 3.10: a jump restarts the channel, its partial tick dropped. -/
theorem test_time_jump :
    let t := after (exec (.fieldFrameComplete 2 ((linkFrame (packet 6 201 4000130 10)).drop 2)) (hub6 .live (some rec128)))
    (t.hub 6).expAsn = some 4000140 ∧ ((t.port 2).log.kind .timeJump).count = 1 ∧
    (t.chan 128).state = .settling ∧ (t.chan 128).changed = true ∧
    ((t.chan 128).cond.map fun r => (r.restartTick, r.settleRemaining, r.completeThrough)) =
      some (1000032, 125, some 1000034) ∧
    t.journal.entries.head? = some ⟨1, .channel 128 .live .settling⟩ := by decide +kernel

/-- The worked case of 3.11, step 1: a packet of which nothing remains leaves the expectations. -/
theorem test_overlap_dropped :
    let t := after (exec (.fieldFrameComplete 2 ((linkFrame (packet 6 200 4000000 10)).drop 2)) (hub6 .settling (some rec128)))
    t.hub 6 = (hub6 .settling none).hub 6 ∧ ((t.port 2).log.kind .timeBehind).count = 1 ∧
      ((t.port 2).log.kind .sequence).count = 1 ∧ (t.chan 128).cond = some rec128 := by decide +kernel

/-! ## Triggering, events, alert and journal (07 to 09) -/

/-- A peak result of a window with a brightness and a K. -/
def peakOf (w b k : Nat) : WindowResult := .peak ⟨w, 100, 16 * w + 6, b, k, [(1, 8)], 7⟩

/-- The trigger states, counts and closes over a list of results. -/
def decisions (t : Trigger) : List WindowResult → List (TrigState × Nat × Nat × Nat × Option Nat)
  | [] => []
  | r :: rs =>
    let d := t.take Params.powerOn r
    (d.trig.state, d.trig.armedCount, d.trig.openCount, d.trig.quietCount, d.close.map fun c => c.openCount) ::
      decisions d.trig rs

/-- The worked case of 7.10: a rejected candidate and a confirmed event. -/
theorem test_trigger_case :
    decisions Trigger.powerOn
      [peakOf 80000 175 4, peakOf 80001 130 3, peakOf 80002 60 2, peakOf 80003 210 5, peakOf 80004 402 9, peakOf 80005 455 9,
       peakOf 80006 180 7, peakOf 80007 90 4, .blind 80008 3 4, peakOf 80009 70 3] =
      [(.armed, 1, 0, 0, none), (.idle, 0, 0, 0, none), (.idle, 0, 0, 0, none), (.armed, 1, 0, 0, none),
       (.opened, 0, 1, 0, none), (.opened, 0, 2, 0, none), (.opened, 0, 3, 0, none), (.opened, 0, 4, 1, none),
       (.opened, 0, 5, 2, none), (.idle, 0, 0, 0, some 6)] := by decide +kernel

/-- An event record of a sequence and a level. -/
def eventOf (q : Nat) (l : EventLevel) : EventRecord :=
  ⟨q, 7, 100, 3, 0, 0, 0, 500, 3, 20, 3, 4, 8, .shutIn, l, false, false, false, []⟩

/-- The full queue of 8.7: records 501 to 532. -/
def full87 : State :=
  { State.reset with
    queue :=
      ⟨(List.range 32).map fun i =>
        eventOf (501 + i) (if i = 4 ∨ i = 16 then .amber else if i = 19 then .red else .none), 532, none⟩ }

/-- The worked case of 8.7, steps 1 and 2: AMBER evicts the oldest NONE record, NONE is dropped. -/
theorem test_evict_drop :
    let t := full87.handOn (eventOf 533 .amber)
    let u := t.handOn (eventOf 534 .none)
    (t.queue.records.map fun e => e.sequence) = (List.range 32).map (502 + ·) ∧
    t.journal.entries = [⟨1, .event 533 .amber⟩, ⟨2, .evicted 501⟩] ∧ u.queue.records = t.queue.records ∧
    u.journal.entries.drop 2 = [⟨3, .event 534 .none⟩, ⟨4, .dropped 534⟩] ∧ u.alert = t.alert := by decide +kernel

/-- The journal of 9.8. -/
def start98 : State := { State.reset with array := .running, journal := { Journal.powerOn with next := 4001 } }

/-- The worked case of 9.8, steps 1 to 4. -/
theorem test_journal_quiet_blind :
    let t := [peakOf 70000 40 3, peakOf 70001 55 3, peakOf 70002 30 3, .blind 70003 2 3, .blind 70004 2 3,
      .blind 70005 2 3, .blind 70006 2 3].foldl State.takeResult start98
    t.journal.entries = [⟨4001, .quiet 3⟩, ⟨4002, .blind 70003 2⟩, ⟨4003, .blind 70004 2⟩] ∧
    t.journal.run = some (.blind, 2) ∧ t.journal.tally = 2 ∧ t.journal.quiet = 0 := by decide +kernel

/-- The worked case of 9.8, steps 7 and 9: flush and release ahead of STALL, then PEAK ahead of TRIGGER. -/
theorem test_journal_release :
    let s := { start98 with journal := { start98.journal with next := 4004, quiet := 1, run := some (.blind, 2), tally := 3 } }
    let t := s.offer (.stall 70009 1)
    let u := (t.takeResult (peakOf 70009 60 3)).takeResult (peakOf 70010 170 4)
    t.journal.entries = [⟨4004, .quiet 1⟩, ⟨4005, .repeated .blind 3⟩, ⟨4006, .stall 70009 1⟩] ∧
    t.journal.run = some (.stall, 1) ∧
    u.journal.entries.drop 3 = [⟨4007, .quiet 1⟩, ⟨4008, .peak 70010 100 6 170 4 1⟩, ⟨4009, .trigger .idle .armed 70010 false⟩] ∧
    u.journal.run = none := by decide +kernel

/-! ## Requests -/

/-- A state with one request in a control port's queue, of tag 7. -/
def ask (s : State) (c : CPort) (req : Req) (payload : List Byte) : State :=
  s.setCtl c { s.ctl c with queue := [⟨7, req.code, payload⟩] }

/-- The part in STOPPED. -/
def idle : State := { State.reset with array := .stopped }

/-- The part in RUNNING, with an active bank of serial 1. -/
def running : State :=
  { State.reset with
    array := .running
    banks := { BankCtl.powerOn with hasActive := true, activeSerial := 1, serialCounter := 1 } }

theorem asks_ask {s : State} {c : CPort} {req : Req} {payload : List Byte} (h : s.resetAsserted = false)
    (hr : (s.ctl c).reply = none) : Asks (ask s c req payload) c req 7 payload :=
  ⟨by cases c <;> exact h, by cases c <;> simp_all [State.takeable, ask, State.ctl, State.setCtl]⟩

theorem served_ask {s : State} {c : CPort} {req : Req} {payload : List Byte}
    (h : s.resetAsserted = false ∧ (s.ctl c).reply = none ∧ req.allowed c = true ∧ req.lengthOk payload = true ∧
      s.array ≠ .initializing) : Served (ask s c req payload) c req 7 payload :=
  ⟨asks_ask h.1 h.2.1, h.2.2.1, h.2.2.2.1, fun hh => absurd (by cases c <;> exact hh) h.2.2.2.2⟩

/-! ## Witnesses: steps, run control, requests in general -/

/-- A hold-off timer and a dwell that both run, at the least values the statement speaks of. -/
def timing : State :=
  { running with sched := ⟨some 5, .holding, some 2, none, []⟩, alert := { Alert.powerOn with level := .amber, dwell := .running 2 } }

theorem test_witness_EmptyQueueLetsAMillisecondPass :
    timing.pending = [] ∧ timing.resetAsserted = false ∧ (∀ p, (timing.port p).linkTimer = none) ∧
      timing.sched.state = .holding ∧ timing.sched.timer = some (0 + 2) ∧ timing.alert.dwell = .running (0 + 2) := by
  decide +kernel

theorem test_witness_TheResetLine :
    ({ State.reset with resetAsserted := true } : State).resetAsserted = true ∧
      Instr.status .plant ≠ .resetAsserted ∧ Instr.status .plant ≠ .resetReleased := by decide

theorem test_witness_InitializationCompletes :
    State.reset.resetAsserted = false ∧ State.reset.array = .initializing := by decide

/-- The part in STOPPED with an active bank. -/
def loaded : State := { idle with banks := running.banks }

theorem test_witness_ArrayStart :
    (Served (ask loaded .survey .arrayStart []) .survey .arrayStart 7 [] ∧
      (ask loaded .survey .arrayStart []).array = .stopped ∧ (ask loaded .survey .arrayStart []).banks.hasActive = true) ∧
    (Served (ask running .survey .arrayStart []) .survey .arrayStart 7 [] ∧
      (ask running .survey .arrayStart []).array = .running) ∧
    (Served (ask idle .survey .arrayStart []) .survey .arrayStart 7 [] ∧
      (ask idle .survey .arrayStart []).banks.hasActive = false) :=
  ⟨⟨served_ask (by decide +kernel), by decide +kernel⟩, ⟨served_ask (by decide +kernel), by decide +kernel⟩,
    served_ask (by decide +kernel), by decide +kernel⟩

/-- RUNNING with an open event, a window in flight and channels in three states. -/
def busy : State :=
  { (((running.setChan 0 { Channel.powerOn with state := .live, cond := some (CondRec.fresh 0 7) }).setChan 255
      { Channel.powerOn with state := .lost })) with
    sched := ⟨some 5, .stacking, none, some ⟨5, [(0, 8)], 1, 0, false⟩, []⟩
    trig := ⟨.opened, some ⟨5, 0, 80, 200, 6, [(0, 8)], 1⟩, 0, 1, 0⟩ }

theorem test_witness_ArrayStop :
    (Served (ask busy .survey .arrayStop []) .survey .arrayStop 7 [] ∧ (ask busy .survey .arrayStop []).array = .running ∧
      TriggerOk (ask busy .survey .arrayStop []).trig ∧
      ∀ p, ((ask busy .survey .arrayStop []).port p).handling = none ∧ ((ask busy .survey .arrayStop []).port p).waiting = none ∧
        ((ask busy .survey .arrayStop []).port p).slipWait = false) ∧
    (Served (ask idle .survey .arrayStop []) .survey .arrayStop 7 [] ∧ (ask idle .survey .arrayStop []).array = .stopped) :=
  ⟨⟨served_ask (by decide +kernel), by decide +kernel, ⟨by decide +kernel, by decide +kernel⟩, by decide +kernel⟩,
    served_ask (by decide +kernel), by decide +kernel⟩

/-- A request code of no request. -/
def strange : State := idle.setCtl .plant { CtlPort.powerOn with queue := [⟨7, 0x73, []⟩] }

theorem test_witness_ChecksAheadOfTheOwner :
    (Asks (ask idle .plant .arrayStart [1]) .plant .arrayStart 7 [1] ∧ Req.allowed .arrayStart .plant = false) ∧
    (Asks (ask State.reset .survey .bankWrite [0, 0, 0, 0, 0]) .survey .bankWrite 7 [0, 0, 0, 0, 0] ∧
      Req.allowed .bankWrite .survey = true ∧ Req.lengthOk .bankWrite [0, 0, 0, 0, 0] = false) ∧
    (Asks (ask State.reset .plant .paramGet [1]) .plant .paramGet 7 [1] ∧ Req.allowed .paramGet .plant = true ∧
      Req.lengthOk .paramGet [1] = true ∧ (ask State.reset .plant .paramGet [1]).array = .initializing) ∧
    (strange.resetAsserted = false ∧ strange.takeable .plant = some ⟨7, 0x73, []⟩ ∧ Req.ofCode 0x73 = none) :=
  ⟨⟨asks_ask rfl rfl, by decide⟩, ⟨asks_ask rfl rfl, by decide⟩, ⟨asks_ask rfl rfl, by decide⟩, by decide +kernel⟩

theorem test_witness_ACommandWithoutItsRequestChangesNothing :
    strange.resetAsserted = false ∧ ∀ r, strange.takeable .plant = some r → r.code ≠ Req.code .identify := by
  refine ⟨by decide, fun r h => ?_⟩
  obtain rfl : (⟨7, 0x73, []⟩ : Request) = r := Option.some.inj h
  decide

theorem test_witness_Identify_StatusSummary :
    Asks (ask State.reset .plant .identify []) .plant .identify 7 [] ∧
      Asks (ask State.reset .plant .identify [0]) .plant .identify 7 [0] ∧
      Asks (ask State.reset .plant .status []) .plant .status 7 [] :=
  ⟨asks_ask rfl rfl, asks_ask rfl rfl, asks_ask rfl rfl⟩

theorem test_witness_ParamRequests :
    (Served (ask idle .plant .paramGet [0x1F]) .plant .paramGet 7 [0x1F] ∧ ParamId.journalMode.row.code = field [0x1F] 0 1) ∧
    (Served (ask idle .survey .paramGet [0x14]) .survey .paramGet 7 [0x14] ∧
      ∀ i ∈ ParamId.all, i.row.code ≠ field [0x14] 0 1) ∧
    (Served (ask idle .survey .paramSet [0x01, 0, 0, 0, 5]) .survey .paramSet 7 [0x01, 0, 0, 0, 5] ∧
      ParamId.ks.row.code = field [0x01, 0, 0, 0, 5] 0 1 ∧ 5 = field [0x01, 0, 0, 0, 5] 1 4 ∧ ParamId.ks.row.mode = false ∧
      4 = max ParamId.ks.row.least (min ParamId.ks.row.greatest 5)) ∧
    (Served (ask idle .survey .paramSet [0x15, 0, 0, 0xFF, 0xFF]) .survey .paramSet 7 [0x15, 0, 0, 0xFF, 0xFF] ∧
      ParamId.amberShut.row.code = field [0x15, 0, 0, 0xFF, 0xFF] 0 1 ∧ 960 = min (min 3825 65535) (idle.param .redShut)) ∧
    (Served (ask idle .survey .paramSet [0x1B, 0, 0, 0, 1]) .survey .paramSet 7 [0x1B, 0, 0, 0, 1] ∧
      ParamId.rehearsal.row.mode = true ∧ field [0x1B, 0, 0, 0, 1] 1 4 ≤ 1) ∧
    (Served (ask idle .survey .paramSet [0x1B, 0, 0, 0, 2]) .survey .paramSet 7 [0x1B, 0, 0, 0, 2] ∧
      1 < field [0x1B, 0, 0, 0, 2] 1 4) :=
  ⟨⟨served_ask (by decide +kernel), by decide⟩, ⟨served_ask (by decide +kernel), by decide⟩,
    ⟨served_ask (by decide +kernel), by decide⟩, ⟨served_ask (by decide +kernel), by decide⟩,
    ⟨served_ask (by decide +kernel), by decide⟩, served_ask (by decide +kernel), by decide⟩

/-- EVENT masked on both ports. -/
def masked : State := ({ State.reset with survey := { CtlPort.powerOn with mask := [.event] } })

theorem test_witness_NoticeMasks :
    (noticeSet? (field [0, 4] 0 2) = some [.event] ∧ NoticeKind.event.maskable = true ∧
      NoticeKind.event.receivedBy .plant = true ∧ NoticeKind.event.receivedBy .survey = true) ∧
    (Asks (ask State.reset .plant .noticeMaskSet [0, 4]) .plant .noticeMaskSet 7 [0, 4] ∧
      NoticeKind.event ∉ ((ask State.reset .plant .noticeMaskSet [0, 4]).ctl .plant).mask) ∧
    (Asks (ask masked .survey .noticeMaskSet [0, 4]) .survey .noticeMaskSet 7 [0, 4] ∧
      Asks (ask masked .survey .noticeMaskClear [0, 4]) .survey .noticeMaskClear 7 [0, 4] ∧
      NoticeKind.event ∈ ((ask masked .survey .noticeMaskClear [0, 4]).ctl .survey).mask) ∧
    (Asks (ask State.reset .survey .noticeMaskClear [0, 4]) .survey .noticeMaskClear 7 [0, 4] ∧
      NoticeKind.event ∉ ((ask State.reset .survey .noticeMaskClear [0, 4]).ctl .survey).mask) ∧
    (noticeSet? (field [4, 0] 0 2) = none ∧ field [0, 0] 0 2 = 0 ∧ noticeSet? (field [0, 1] 0 2) = some [.start] ∧
      NoticeKind.start.maskable = false ∧ noticeSet? (field [0, 0x10] 0 2) = some [.channel] ∧
      NoticeKind.channel.receivedBy .plant = false) :=
  ⟨by decide, ⟨asks_ask rfl rfl, by decide⟩, ⟨asks_ask rfl rfl, asks_ask rfl rfl, by decide⟩,
    ⟨asks_ask rfl rfl, by decide⟩, by decide⟩

/-! ## Witnesses: control ports -/

/-- A survey port receiving a frame. -/
def receiving : State := idle.setCtl .survey { CtlPort.powerOn with rx := .line (.receiving []) }

/-- A plant port in BREAK. -/
def broken : State := idle.setCtl .plant { CtlPort.powerOn with rx := .inBreak, spacing := 16 }

theorem test_witness_ControlFrameReceived :
    receiving.resetAsserted = false ∧ (receiving.ctl .survey).rx = .line (.receiving []) ∧
    (List.replicate 1021 (0 : Byte)).length + 3 ≤ 1024 ∧
    ([0x03, 1, 1] : List Byte).head? ≠ some 0x02 ∧ ([0x02, 1] : List Byte).length < 3 ∧
    broken.resetAsserted = false ∧ (broken.ctl .plant).rx = .inBreak := by decide +kernel

theorem test_witness_ControlFraming :
    (idle.resetAsserted = false ∧ (idle.ctl .plant).rx = .line (.hunting false)) ∧
    ((receiving.ctl .survey).rx = .line (.receiving []) ∧ (0#16).toNat = 0 ∧ 1024 < (1025#16).toNat ∧
      1024 < (0xB649#16).toNat) := by decide

theorem test_witness_Transmission :
    (({ CtlPort.powerOn with tx := some ⟨[1], true⟩ } : CtlPort).tx = some ⟨[1], true⟩) ∧
    (({ CtlPort.powerOn with refusals := [⟨1, 2⟩], reply := some ⟨⟨1, 1, .ok, []⟩, false, 1⟩ } : CtlPort).refusals = ⟨1, 2⟩ :: [] ∧
      (1 : Nat) ≠ 0) ∧
    (({ CtlPort.powerOn with pending := [.alert] } : CtlPort).pending = .alert :: [] ∧ CtlPort.powerOn.tx = none ∧
      CtlPort.powerOn.reply = none ∧ CtlPort.powerOn.refusals = []) := by decide

theorem test_witness_PortReset :
    idle.resetAsserted = false ∧ (idle.ctl .plant).rx = .line (.hunting false) ∧ (broken.ctl .plant).rx = .inBreak := by
  decide

/-! ## Witnesses: channels -/

/-- Channel 255 LIVE and a member of the front window, the scheduler HOLDING; channel 0 with a latched alarm. -/
def held : State :=
  { (((running.setChan 255 { Channel.powerOn with
      state := .live, cond := some ⟨some 0, none, some 0, some 0, 0, 0, 0, none, some 100⟩ }).setChan 0
      { Channel.powerOn with alarms := ⟨true, false, false⟩ })) with
    sched := ⟨some 5, .holding, some 10, none, []⟩ }

theorem test_witness_ChannelSettings :
    (Served (ask idle .survey .channelConfig [0, 255, 16, 1, 0, 0, 0, 0, 0, 1, 0, 0, 2, 1]) .survey .channelConfig 7
        [0, 255, 16, 1, 0, 0, 0, 0, 0, 1, 0, 0, 2, 1] ∧
      field [0, 255, 16, 1, 0, 0, 0, 0, 0, 1, 0, 0, 2, 1] 0 2 = (255 : Fin 256).val ∧
      field [0, 255, 16, 1, 0, 0, 0, 0, 0, 1, 0, 0, 2, 1] 3 1 = Polarity.negative.code ∧
      field [0, 255, 16, 1, 0, 0, 0, 0, 0, 1, 0, 0, 2, 1] 13 1 = true.toNat) ∧
    255 < field [1, 0, 8, 0, 0, 0, 1, 0, 0, 0, 0, 0, 0, 0] 0 2 ∧ 1 < field [0, 0, 8, 2, 0, 0, 1, 0, 0, 0, 0, 0, 0, 0] 3 1 ∧
    1 < field [0, 0, 8, 0, 0, 0, 1, 0, 0, 0, 0, 0, 0, 2] 13 1 ∧
    (Served (ask held .survey .channelAlarmClear [0, 0, 7]) .survey .channelAlarmClear 7 [0, 0, 7] ∧
      field [0, 0, 7] 0 2 = (0 : Fin 256).val ∧ field [0, 0, 7] 2 1 = true.toNat + 2 * true.toNat + 4 * true.toNat) ∧
    255 < field [1, 0, 7] 0 2 ∧ field [0, 0, 0] 2 1 = 0 ∧ 7 < field [0, 0, 8] 2 1 :=
  ⟨⟨served_ask (by decide +kernel), by decide +kernel⟩, by decide +kernel, by decide +kernel, by decide +kernel,
    ⟨served_ask (by decide +kernel), by decide +kernel⟩, by decide +kernel, by decide +kernel, by decide +kernel⟩

theorem test_witness_ChannelEnableDisable :
    (Served (ask idle .survey .channelEnable [0, 255]) .survey .channelEnable 7 [0, 255] ∧
      field [0, 255] 0 2 = (255 : Fin 256).val ∧ ((ask idle .survey .channelEnable [0, 255]).chan 255).state = .off ∧
      ((ask held .survey .channelEnable [0, 255]).chan 255).state ≠ .off ∧ 255 < field [1, 0] 0 2) ∧
    (Served (ask held .survey .channelDisable [0, 255]) .survey .channelDisable 7 [0, 255] ∧
      (ask held .survey .channelDisable [0, 255]).sched.state = .holding ∧
      (ask held .survey .channelDisable [0, 255]).isMember 255 = true) ∧
    (Served (ask busy .survey .channelDisable [0, 255]) .survey .channelDisable 7 [0, 255] ∧
      ((ask busy .survey .channelDisable [0, 255]).chan 255).state ≠ .off ∧
      (ask busy .survey .channelDisable [0, 255]).sched.state ≠ .holding) ∧
    (Served (ask idle .survey .channelDisable [0, 0]) .survey .channelDisable 7 [0, 0] ∧
      ((ask idle .survey .channelDisable [0, 0]).chan 0).state = .off) :=
  ⟨⟨served_ask (by decide +kernel), by decide +kernel⟩, ⟨served_ask (by decide +kernel), by decide +kernel⟩,
    ⟨served_ask (by decide +kernel), by decide +kernel⟩, served_ask (by decide +kernel), by decide +kernel⟩

/-! ## Witnesses: field ports and hubs -/

/-- FP3 UP and receiving, FP0 DOWN, FP1 FAILED, FP2 DISABLED; hub 15 on channels 0 to 63 of FP3. -/
def ports : State :=
  (((running.setPort 3 { FieldPort.powerOn with state := .up, linkTimer := some 0, rx := .receiving [] }).setPort 0
    { FieldPort.powerOn with state := .down }).setPort 1 { FieldPort.powerOn with state := .failed }).setHub 15
    ⟨true, 3, 0, 1, some 9, some 40⟩

theorem test_witness_PortEnableDisable :
    (Served (ask ports .survey .portEnable [2]) .survey .portEnable 7 [2] ∧ field [2] 0 1 = (2 : FPort).val ∧
      ((ask ports .survey .portEnable [2]).port 2).state = .disabled ∧
      ((ask ports .survey .portEnable [1]).port 1).state = .failed ∧ ((ask ports .survey .portEnable [3]).port 3).state = .up ∧
      ((ask ports .survey .portEnable [0]).port 0).state = .down ∧ 3 < field [4] 0 1) ∧
    (Served (ask ports .survey .portDisable [3]) .survey .portDisable 7 [3] ∧
      ((ask ports .survey .portDisable [3]).port 3).state ≠ .disabled ∧
      ((ask ports .survey .portDisable [2]).port 2).state = .disabled) :=
  ⟨⟨served_ask (by decide +kernel), by decide +kernel⟩, served_ask (by decide +kernel), by decide +kernel⟩

/-- The state of `ports` with channel 0 LIVE, in the run of hub 15. -/
def manned : State := ports.setChan 0 { Channel.powerOn with state := .live, cond := some (CondRec.fresh 0 7) }

theorem test_witness_HubMapSetClear :
    (Served (ask ports .survey .hubMapSet [0, 3, 0, 192, 0, 64]) .survey .hubMapSet 7 [0, 3, 0, 192, 0, 64] ∧
      field [0, 3, 0, 192, 0, 64] 0 1 = (0 : Fin 16).val ∧ field [0, 3, 0, 192, 0, 64] 1 1 < 4 ∧
      field [0, 3, 0, 192, 0, 64] 2 2 + field [0, 3, 0, 192, 0, 64] 4 2 ≤ 256 ∧
      (∀ g : Fin 16, g ≠ 0 → (ports.hub g).valid = true → 192 + 64 ≤ (ports.hub g).base ∨ (ports.hub g).base + (ports.hub g).count ≤ 192) ∧
      (ports.hub 0).valid = false) ∧
    (manned.array = .running ∧ (manned.hub 15).valid = true ∧
      (∃ j : Fin 256, (manned.hub 15).base ≤ j.val ∧ j.val < (manned.hub 15).base + (manned.hub 15).count ∧
        (manned.chan j).state ≠ .off)) ∧
    (∃ g : Fin 16, g ≠ 1 ∧ (ports.hub g).valid = true ∧ 0 < (ports.hub g).base + (ports.hub g).count ∧
      (ports.hub g).base < 0 + 1) ∧
    (15 < field [16, 0, 0, 0, 0, 1] 0 1 ∧ 3 < field [0, 4, 0, 0, 0, 1] 1 1 ∧ 255 < field [0, 0, 1, 0, 0, 1] 2 2 ∧
      64 < field [0, 0, 0, 0, 0, 65] 4 2 ∧ 256 < field [0, 0, 0, 193, 0, 64] 2 2 + field [0, 0, 0, 193, 0, 64] 4 2) ∧
    (Served (ask ports .survey .hubMapClear [15]) .survey .hubMapClear 7 [15] ∧ (ports.hub 15).valid = true ∧
      (∀ j : Fin 256, (ports.hub 15).base ≤ j.val → j.val < (ports.hub 15).base + (ports.hub 15).count →
        (ports.chan j).state = .off) ∧
      (ports.hub 0).valid = false) :=
  ⟨⟨served_ask (by decide +kernel), by decide +kernel⟩, by decide +kernel, by decide +kernel, by decide +kernel,
    served_ask (by decide +kernel), by decide +kernel⟩

theorem test_witness_RecordsRead :
    (Served (ask ports .survey .hubMapGet [15]) .survey .hubMapGet 7 [15] ∧ field [15] 0 1 = (15 : Fin 16).val ∧
      15 < field [16] 0 1) ∧
    Served (ask idle .survey .gridGet []) .survey .gridGet 7 [] ∧
    (Served (ask idle .survey .zoneGet [8]) .survey .zoneGet 7 [8] ∧ field [7] 0 1 = (7 : Fin 8).val ∧ field [8] 0 1 = 8 ∧
      8 < field [9] 0 1) ∧
    Served (ask idle .plant .alertStatus []) .plant .alertStatus 7 [] ∧
    (Served (ask held .survey .channelQuery [0, 255]) .survey .channelQuery 7 [0, 255] ∧ 255 < field [1, 0] 0 2) :=
  ⟨⟨served_ask (by decide +kernel), by decide⟩, served_ask (by decide +kernel), ⟨served_ask (by decide +kernel), by decide⟩,
    served_ask (by decide +kernel), served_ask (by decide +kernel), by decide⟩

/-- FRAME_FORM made FATAL on FP3. -/
def strict : State :=
  ports.setPort 3 { ports.port 3 with log := ErrorLog.powerOn.setKind .frameForm ⟨false, 0, false, .fatal⟩ }

theorem test_witness_FieldFraming :
    ((ports.port 0).state = .down ∧ (ports.port 0).rx = .hunting false ∧ (ports.port 1).state = .failed ∧
      (ports.port 2).state = .disabled) ∧
    (ports.resetAsserted = false ∧ (ports.port 3).state = .up ∧ (ports.port 3).rx = .receiving [] ∧ 8192 < (8193#16).toNat ∧
      8193#16 ≠ 0xB649#16 ∧ 0#16 ≠ 0xB649#16 ∧ ((ports.port 3).log.kind .frameForm).severity ≠ .fatal) ∧
    ((strict.port 3).state = .up ∧ (strict.port 3).rx = .receiving [] ∧
      ((strict.port 3).log.kind .frameForm).severity = .fatal) := by decide +kernel

/-- A contiguous packet of hub 15. -/
def goodBody : List Byte := packet 15 9 40 1

/-- FP3 in STOPPED with a frame in its handling place. -/
def handling (body : List Byte) : State :=
  { ports.setPort 3 { ports.port 3 with handling := some ⟨body, none⟩ } with array := .stopped }

theorem test_witness_FramesHandled :
    (ports.resetAsserted = false ∧ (ports.port 3).state = .up ∧ (ports.port 3).rx = .receiving [] ∧
      (ports.port 3).handling = none ∧ (ports.port 3).waiting = none ∧ ports.array = .running ∧
      samplesHeader? goodBody = some ⟨15, 9, 40, 1, 1⟩ ∧ (ports.hub 15).valid = true ∧ (ports.hub 15).port = (3 : FPort).val ∧
      (ports.hub 15).count = 1 ∧ (ports.hub 15).expSeq = some 9 ∧ (ports.hub 15).expAsn = some 40 ∧
      ∀ j, (ports.chan j).state = .off) ∧
    ((handling goodBody).array ≠ .running ∧ ((handling goodBody).port 3).handling = some ⟨goodBody, none⟩ ∧
      samplesHeader? [2] = none ∧ samplesHeader? (packet 16 9 40 1) = some ⟨16, 9, 40, 1, 1⟩ ∧
      ((handling (packet 0 9 40 1)).hub 0).valid = false ∧
      ((handling goodBody).setHub 15 ⟨true, 3, 0, 2, none, none⟩ |>.hub 15).count ≠ 1) ∧
    (((handling goodBody).port 3).state = .up ∧ ((handling goodBody).port 3).waiting = none) := by decide +kernel

theorem test_witness_LinkDown :
    ports.resetAsserted = false ∧ (ports.port 3).state = .up ∧ (ports.port 0).state ≠ .up := by decide +kernel

theorem test_witness_PacketClasses :
    classOf (some 40) 16 40 = .contiguous ∧ (40 < 41 ∧ 56 ≤ 40 + 16 ∧ classOf (some 40) 16 56 = .gap 40) ∧
      (40 + 16 < 57 ∧ classOf (some 40) 16 57 = .jump) ∧ (39 < 40 ∧ classOf (some 40) 16 39 = .overlap 40) ∧
      (classOf (some 40) 16 30).dropped 30 10 = true ∧ (classOf (some 40) 16 30).dropped 30 11 = false := by decide

/-! ## Witnesses: the error log -/

theorem test_witness_ErrorOccurrence :
    ((ErrorLog.powerOn.kind .shape).masked = false ∧ (ErrorLog.powerOn.kind .shape).severity ≠ .advisory ∧
      ErrorLog.powerOn.first = none) ∧
    (ErrorLog.powerOn.kind .frameCheck).severity = .advisory ∧ ErrKind.shape ≠ .frameCheck ∧
    ((strict.port 3).log.kind .frameForm).severity = .fatal ∧ ((ports.port 3).log.kind .frameForm).severity ≠ .fatal := by
  decide +kernel

theorem test_witness_ErrorLogRequests :
    field [3, 3, 0xFF, 3, 2] 0 1 = (3 : FPort).val ∧
    Served (ask ports .survey .errorReport [3]) .survey .errorReport 7 [3] ∧
    (Served (ask ports .survey .errorConfig [3, 3, 0xFF, 3, 2]) .survey .errorConfig 7 [3, 3, 0xFF, 3, 2] ∧
      errorSet? (field [3, 3, 0xFF, 3, 2] 1 2) = some ErrKind.all ∧ severityAction? (field [3, 3, 0xFF, 3, 2] 3 1) = some none ∧
      maskAction? (field [3, 3, 0xFF, 3, 2] 4 1) = some none) ∧
    (Served (ask ports .survey .errorClear [3, 2, 0, 1]) .survey .errorClear 7 [3, 2, 0, 1] ∧
      errorSet? (field [3, 2, 0, 1] 1 2) = some [.slip] ∧ field [3, 2, 0, 1] 3 1 = true.toNat) :=
  ⟨by decide, served_ask (by decide +kernel), ⟨served_ask (by decide +kernel), by decide⟩,
    served_ask (by decide +kernel), by decide⟩

theorem test_witness_ErrorLogRangeRefusals :
    (Served (ask idle .survey .errorReport [4]) .survey .errorReport 7 [4] ∧ 3 < field [4] 0 1) ∧
    (Served (ask idle .survey .errorConfig [0, 4, 0, 0, 0]) .survey .errorConfig 7 [0, 4, 0, 0, 0] ∧
      1023 < field [0, 4, 0, 0, 0] 1 2 ∧ field [0, 0, 0, 0, 0] 1 2 = 0 ∧ 3 < field [0, 0, 1, 4, 0] 3 1 ∧
      2 < field [0, 0, 1, 0, 3] 4 1) ∧
    (Served (ask idle .survey .errorClear [0, 0, 1, 2]) .survey .errorClear 7 [0, 0, 1, 2] ∧ 1 < field [0, 0, 1, 2] 3 1) :=
  ⟨⟨served_ask (by decide +kernel), by decide⟩, ⟨served_ask (by decide +kernel), by decide⟩,
    served_ask (by decide +kernel), by decide⟩

/-! ## Witnesses: grid and banks -/

/-- A GRID SET payload of given counts. -/
def gridPayload (nx ny nz : Byte) : List Byte := [nx, ny, nz] ++ List.replicate 24 0

/-- The part in STOPPED with a PENDING bank, and with a LOADING one. -/
def withStandby (s : State) (st : StandbyState) : State := { s with banks := { s.banks with standbyState := st } }

theorem test_witness_GridSet :
    (Served (ask idle .survey .gridSet (gridPayload 32 32 4)) .survey .gridSet 7 (gridPayload 32 32 4) ∧
      idle.array ≠ .running ∧ idle.banks.phase = .none ∧ field (gridPayload 32 32 4) 0 1 ≤ 32 ∧ 32 * 32 * 4 ≤ 4096) ∧
    (Served (ask running .survey .gridSet (gridPayload 1 1 1)) .survey .gridSet 7 (gridPayload 1 1 1) ∧
      running.array = .running) ∧
    (Served (ask (withStandby idle .pending) .survey .gridSet (gridPayload 1 1 1)) .survey .gridSet 7 (gridPayload 1 1 1) ∧
      (withStandby idle .pending).banks.phase ≠ .none) ∧
    (Served (ask idle .survey .gridSet (gridPayload 0 33 32)) .survey .gridSet 7 (gridPayload 0 33 32) ∧
      32 < field (gridPayload 0 33 32) 1 1) :=
  ⟨⟨served_ask (by decide +kernel), by decide +kernel⟩, ⟨served_ask (by decide +kernel), by decide +kernel⟩,
    ⟨served_ask (by decide +kernel), by decide +kernel⟩, served_ask (by decide +kernel), by decide +kernel⟩

theorem test_witness_BankWrite :
    (Served (ask idle .survey .bankWrite [0, 0, 0, 255, 0, 1, 9]) .survey .bankWrite 7 [0, 0, 0, 255, 0, 1, 9] ∧
      0 < idle.banks.grid.voxels ∧ field [0, 0, 0, 255, 0, 1, 9] 2 2 + field [0, 0, 0, 255, 0, 1, 9] 4 2 ≤ 256 ∧
      idle.banks.phase = .none) ∧
    (Served (ask idle .survey .bankWrite [0, 1, 0, 0, 0, 1, 9]) .survey .bankWrite 7 [0, 1, 0, 0, 0, 1, 9] ∧
      idle.banks.grid.voxels ≤ field [0, 1, 0, 0, 0, 1, 9] 0 2) ∧
    (Served (ask (withStandby idle .checking) .survey .bankWrite [0, 0, 0, 0, 0, 1, 9]) .survey .bankWrite 7
        [0, 0, 0, 0, 0, 1, 9] ∧ (withStandby idle .checking).banks.phase ≠ .none) :=
  ⟨⟨served_ask (by decide +kernel), by decide +kernel⟩, ⟨served_ask (by decide +kernel), by decide +kernel⟩,
    served_ask (by decide +kernel), by decide +kernel⟩

theorem test_witness_BankRead :
    (Served (ask loaded .survey .bankRead [0, 0, 0, 0, 0, 1, 0]) .survey .bankRead 7 [0, 0, 0, 0, 0, 1, 0] ∧
      0 < loaded.banks.grid.voxels ∧ field [0, 0, 0, 0, 0, 1, 0] 5 2 = 256 ∧ loaded.banks.hasActive = true) ∧
    (Served (ask idle .survey .bankRead [0, 0, 0, 0, 0, 0, 0]) .survey .bankRead 7 [0, 0, 0, 0, 0, 0, 0] ∧
      idle.banks.hasActive = false ∧ field [0, 0, 0, 0, 0, 0, 0] 5 2 = 0) ∧
    (field [1, 0, 0, 0, 255, 0, 1] 0 1 = 1 ∧ 1 < field [2, 0, 0, 0, 255, 0, 1] 0 1 ∧
      256 < field [1, 0, 0, 0, 255, 0, 2] 3 2 + field [1, 0, 0, 0, 255, 0, 2] 5 2) :=
  ⟨⟨served_ask (by decide +kernel), by decide +kernel⟩, ⟨served_ask (by decide +kernel), by decide +kernel⟩, by decide⟩

theorem test_witness_BankActivation :
    (Served (ask (withStandby idle .pending) .survey .bankClear []) .survey .bankClear 7 [] ∧
      (withStandby idle .pending).banks.phase ≠ .none) ∧
    (Served (ask idle .survey .bankClear []) .survey .bankClear 7 [] ∧ idle.banks.standbyState = .empty) ∧
    (Served (ask (withStandby idle .loading) .survey .bankActivate []) .survey .bankActivate 7 [] ∧
      (withStandby idle .loading).banks.standbyState = .loading) ∧
    (Served (ask (withStandby idle .checking) .survey .bankAbort []) .survey .bankAbort 7 [] ∧
      (withStandby idle .checking).banks.phase ≠ .none) ∧
    (idle.banks.phase = .none ∧ idle.banks.outcome = .empty) :=
  ⟨⟨served_ask (by decide +kernel), by decide +kernel⟩, ⟨served_ask (by decide +kernel), by decide +kernel⟩,
    ⟨served_ask (by decide +kernel), by decide +kernel⟩, ⟨served_ask (by decide +kernel), by decide +kernel⟩,
    by decide +kernel⟩

/-- A standby bank of one full voxel under validation, the grid of one or two voxels. -/
def validating (nx : Nat) (s : State) : State :=
  { s with
    banks := { s.banks with
      grid := { s.banks.grid with nx := nx }
      standbyState := .checking
      standby := (List.range 256).map fun j => (j, BitVec.ofNat 8 j) } }

theorem test_witness_ValidationFailed :
    (validating 2 idle).resetAsserted = false ∧ (validating 2 idle).banks.standbyState = .checking ∧
      1 < (validating 2 idle).banks.grid.voxels ∧ (validating 2 idle).banks.standby.written 1 ≠ 256 ∧
      ∀ u, u < 1 → (validating 2 idle).banks.standby.written u = 256 := by decide +kernel

theorem test_witness_ValidationPassed :
    ((validating 1 idle).banks.standbyState = .checking ∧
      (∀ v, v < (validating 1 idle).banks.grid.voxels → (validating 1 idle).banks.standby.written v = 256) ∧
      255 = (validating 1 idle).banks.standby.largest (validating 1 idle).banks.grid.voxels ∧
      (validating 1 idle).array = .stopped ∧ (validating 1 idle).sched.state = .unset) ∧
    ((validating 1 busy).array = .running ∧ (validating 1 busy).sched.window ≠ none ∧
      (validating 1 busy).trig.state ≠ .idle) ∧
    Store.wf (validating 1 idle).banks.standby = true := by decide +kernel

/-! ## Witnesses: zones, events, alert, journal -/

/-- A ZONE SET payload at the ends of its ranges. -/
def zonePayload : List Byte := [7, 1, 0, 31, 31, 31, 0, 0, 1, 0, 0, 0x0E, 0xF1, 0x0E, 0xF1, 0x0E, 0xF1, 0, 0, 0, 0]

theorem test_witness_ZoneSet :
    (Served (ask idle .survey .zoneSet zonePayload) .survey .zoneSet 7 zonePayload ∧ field zonePayload 0 1 = (7 : Fin 8).val ∧
      field zonePayload 1 1 = true.toNat ∧ field zonePayload 8 1 = true.toNat ∧ field zonePayload 3 1 ≤ 31 ∧
      field zonePayload 11 2 ≤ 3825 ∧ field zonePayload 13 2 ≤ field zonePayload 15 2) ∧
    (Served (ask idle .survey .zoneSet (zonePayload.set 3 32)) .survey .zoneSet 7 (zonePayload.set 3 32) ∧
      31 < field (zonePayload.set 3 32) 3 1 ∧ 7 < field (zonePayload.set 0 8) 0 1 ∧
      3825 < field (zonePayload.set 12 0xF2) 11 2) :=
  ⟨⟨served_ask (by decide +kernel), by decide +kernel⟩, served_ask (by decide +kernel), by decide +kernel⟩

/-- The queue of 8.7 in STOPPED. -/
def queued : State := { full87 with array := .stopped }

theorem test_witness_EventRequests :
    (Served (ask queued .plant .eventFetch [0, 0, 1, 0xF4]) .plant .eventFetch 7 [0, 0, 1, 0xF4] ∧
      500 = field [0, 0, 1, 0xF4] 0 4 ∧
      queued.queue.records = [] ++ eventOf 501 .none :: queued.queue.records.tail ∧ 500 < (eventOf 501 .none).sequence) ∧
    (532 = field [0, 0, 2, 0x14] 0 4 ∧ ∀ r ∈ queued.queue.records, r.sequence ≤ 532) ∧
    Served (ask queued .survey .eventAck [0, 0, 2, 0x14]) .survey .eventAck 7 [0, 0, 2, 0x14] :=
  ⟨⟨served_ask (by decide +kernel), by decide +kernel⟩, by decide +kernel, served_ask (by decide +kernel)⟩

/-- The part in STOPPED with an alert record. -/
def alerted (l : AlertLevel) (ack : Bool) (d : Dwell) : State := idle.setAlert ⟨l, 900, ack, d, .shutIn⟩

theorem test_witness_AlertAck :
    Served (ask (alerted .green false .stopped) .plant .alertAck [0, 0, 3, 0x84]) .plant .alertAck 7 [0, 0, 3, 0x84] ∧
    field [0, 0, 3, 0x84] 0 4 = 900 ∧ field [0, 0, 3, 0x83] 0 4 < 900 ∧ 900 < field [0, 0, 3, 0x85] 0 4 ∧
    (Served (ask (alerted .red false .stopped) .survey .alertAck [0, 0, 3, 0x84]) .survey .alertAck 7 [0, 0, 3, 0x84] ∧
      Served (ask (alerted .red false .stopped) .plant .alertAck [0, 0, 3, 0x84]) .plant .alertAck 7 [0, 0, 3, 0x84] ∧
      (alerted .red false .stopped).alert.level = .red ∧ 900 = (alerted .red false .stopped).alert.cause) ∧
    (Served (ask (alerted .amber false .expired) .survey .alertAck [0, 0, 3, 0x84]) .survey .alertAck 7 [0, 0, 3, 0x84] ∧
      (alerted .amber false .expired).alert.dwell = .expired ∧ (alerted .amber false (.running 1)).alert.dwell ≠ .expired ∧
      (alerted .amber true (.running 1)).alert.acknowledged = true) :=
  ⟨served_ask (by decide +kernel), by decide, by decide, by decide,
    ⟨served_ask (by decide +kernel), served_ask (by decide +kernel), by decide +kernel⟩,
    served_ask (by decide +kernel), by decide +kernel⟩

theorem test_witness_AlertLevels :
    (Alert.powerOn.level ≠ .red ∧ ({ Alert.powerOn with level := .red } : Alert).level = .red) ∧
    ((alerted .amber true (.running 1)).resetAsserted = false ∧ (alerted .amber true (.running 1)).alert.dwell = .running 1 ∧
      (alerted .amber false (.running 1)).alert.acknowledged = false) := by decide +kernel

theorem test_witness_InjectionSet :
    (Served (ask idle .plant .injectionSet [2]) .plant .injectionSet 7 [2] ∧ field [2] 0 1 = Injection.stimulating.code ∧
      Injection.stimulating ≠ idle.alert.injection ∧ Injection.shutIn = idle.alert.injection) ∧
    (Served (ask idle .plant .injectionSet [3]) .plant .injectionSet 7 [3] ∧ 2 < field [3] 0 1) :=
  ⟨⟨served_ask (by decide +kernel), by decide +kernel⟩, served_ask (by decide +kernel), by decide +kernel⟩

/-- A journal with a pending quiet count and a suppressed tally. -/
def someJournal : Journal := { Journal.powerOn with next := 4004, quiet := 1, run := some (.blind, 2), tally := 3 }

theorem test_witness_JournalOffer :
    someJournal.held = false ∧ someJournal.spent = false ∧ someJournal.post = none ∧ someJournal.next + 2 < 4294967295 ∧
      someJournal.entries.length + 3 ≤ 512 ∧ someJournal.suppresses (.stall 70009 1) = false ∧
      (someJournal.run = none → someJournal.tally = 0) := by decide

/-- The part in STOPPED with a held journal. -/
def heldJournal : State := { idle with journal := { someJournal with held := true } }

theorem test_witness_JournalRequests :
    Served (ask idle .survey .journalRead [0, 0, 0, 0]) .survey .journalRead 7 [0, 0, 0, 0] ∧
    (Served (ask heldJournal .survey .journalRelease []) .survey .journalRelease 7 [] ∧ heldJournal.journal.held = true) ∧
    (Served (ask idle .survey .journalRelease []) .survey .journalRelease 7 [] ∧ idle.journal.held = false) ∧
    Served (ask idle .survey .journalClear []) .survey .journalClear 7 [] :=
  ⟨served_ask (by decide +kernel), ⟨served_ask (by decide +kernel), by decide⟩,
    ⟨served_ask (by decide +kernel), by decide⟩, served_ask (by decide +kernel)⟩

/-! ## Witnesses: conditioning, stacking, triggering -/

theorem test_witness_CharacteristicFunction :
    (ratio 64 300000 300000 = 16 ∧ ratio 64 318750 300000 = 17 ∧ ratio 64 4294967040 16384 = 255) ∧
    (0 < max 300000 (256 * 64) ∧ 16 * 318749 < 17 * max 300000 (256 * 64)) ∧
    ((CondRec.fresh 0 7).settleRemaining = 128 ∧ rec128.settleRemaining = 9) := by decide +kernel

theorem test_witness_TickCompletion :
    (4000003 % 4 = 3 ∧ ∀ p, (CondRec.fresh 1000000 7).part = some p → p.tick = 4000003 / 4) ∧ 4000002 % 4 ≠ 3 :=
  ⟨⟨by decide, fun p h => by cases h⟩, by decide⟩

theorem test_witness_HoldCounts :
    (0 < 1 ∧ Hold.clear.established = false ∧ 1 ≤ Hold.clear.run + 1) ∧ (Hold.clear.run + 1 < 10) ∧
      ((⟨true, 9⟩ : Hold).established = true ∧ 10 ≤ (⟨true, 9⟩ : Hold).run + 1 ∧ (⟨true, 8⟩ : Hold).run + 1 < 10) := by
  decide

/-- Channel 255 ready for window 5 under Smin 1, the scheduler HOLDING. -/
def ready5 : State := { held with params := Params.powerOn.put .smin 1 }

theorem test_witness_Windows :
    (ready5.resetAsserted = false ∧ ready5.sched.state = .holding ∧ ready5.sched.front = some 5 ∧
      ready5.param .smin ≤ ready5.readyMembers.length) ∧
    (SchedOk held ∧ held.readyMembers.length < held.param .smin) ∧
    (busy.resetAsserted = false ∧ busy.sched.window = some ⟨5, [(0, 8)], 1, 0, false⟩ ∧ busy.sched.slips = [] ∧
      ∀ j, (busy.chan j).completeThrough = none) :=
  ⟨by decide +kernel, ⟨⟨by decide +kernel, by decide +kernel, by decide +kernel, fun w h => (by cases h),
    fun h => absurd rfl h⟩, by decide +kernel⟩, by decide +kernel⟩

theorem test_witness_BrightnessAndPeak :
    ((∀ e ∈ ([(0, 8)] : List Contributor), 1 ≤ e.2) ∧ ([(0, 8)] : List Contributor) ≠ [] ∧
      ∀ j u, idle.readC j u ≤ 239) ∧ 0 < idle.banks.grid.voxels := by
  refine ⟨⟨by decide, by decide, fun j u => ?_⟩, by decide⟩
  have h : ∀ j, (idle.chan j).ring = [] := by decide +kernel
  simp [State.readC, h j, Ring.at, Store.read]

/-- A peak record of a brightness and a K. -/
def peakRec (b k : Nat) : Peak := ⟨1, 0, 16, b, k, [(0, 8)], 1⟩

theorem test_witness_TriggerDecision :
    (Trigger.powerOn.state = .idle ∧ (peakRec 159 6).b < Params.powerOn.get .t1 ∧ Params.powerOn.get .t1 ≤ (peakRec 160 6).b ∧
      Params.powerOn.get .kmin ≤ (peakRec 160 6).k ∧ (peakRec 160 5).k < Params.powerOn.get .kmin ∧
      0 < Params.powerOn.get .quietClose ∧ 1 < Params.powerOn.get .eMax ∧ 1 < Params.powerOn.get .confirmLimit) ∧
    ((⟨.armed, some (peakRec 160 5), 0, 0, 0⟩ : Trigger).armedCount + 1 < Params.powerOn.get .confirmLimit ∧
      Params.powerOn.get .confirmLimit ≤ (⟨.armed, some (peakRec 160 5), 1, 0, 0⟩ : Trigger).armedCount + 1) ∧
    (Params.powerOn.get .tRelease ≤ (peakRec 96 1).b ∧
      (⟨.opened, some (peakRec 160 6), 0, 10, 2⟩ : Trigger).openCount + 1 < Params.powerOn.get .eMax ∧
      Params.powerOn.get .quietClose ≤ (⟨.opened, some (peakRec 160 6), 0, 10, 2⟩ : Trigger).quietCount + 1) := by
  decide +kernel

/-- Zone 0 suppresses voxel 0. -/
def suppressing : State :=
  { idle with zones := vset idle.zones 0 { ZoneRule.powerOn with enabled := true, suppress := true } }

theorem test_witness_EventCloses :
    (suppressing.zoneOf 0 = 0 ∧ (suppressing.zone 0).suppress = true) ∧
    (idle.zoneOf 0 = 8 ∧ (idle.zone 8).suppress = false ∧ idle.queue.counter < 4294967295) ∧
    ((peakRec 160 6).contributors.map fun x => x.1).Nodup ∧
    (Params.powerOn.put .rehearsal 1).get .rehearsal = 1 := by decide +kernel

theorem test_witness_FramesDecode : 1 ≤ ([1] : List Byte).length ∧ ([1] : List Byte).length ≤ 65535 := by decide

/-! ## Witnesses of the clauses at their boundaries -/

/-- Every timer of the millisecond running out, but the link timer of FP1, one short of its end. -/
def expiring : State :=
  { (running.setPort 0 { FieldPort.powerOn with state := .up, linkTimer := some 199 }).setPort 1
      { FieldPort.powerOn with state := .up, linkTimer := some 198 } with
    sched := ⟨some 5, .holding, some 1, none, []⟩
    alert := { Alert.powerOn with level := .amber, dwell := .running 1 } }

/-- The expiries fall inside the millisecond; the blind window of the hold-off has completed at once. -/
theorem test_expiries_inside_a_millisecond :
    expiring.pending = [] ∧ expiring.resetAsserted = false ∧
    ((after (step expiring)).port 0).state = .down ∧ ((after (step expiring)).port 1).linkTimer = some 199 ∧
    (after (step expiring)).sched = ⟨some 6, .collecting, none, none, []⟩ ∧
    (after (step expiring)).alert.dwell = .expired := by decide +kernel

/-- The state `busy` with a standby bank PENDING, a packet of FP3 waiting for a slip and a frame behind it. -/
def stopping : State :=
  { busy.setPort 3 { FieldPort.powerOn with
      state := .up, handling := some ⟨[1], some ⟨0, 1, 3104, 1, .jump⟩⟩, waiting := some [2], slipWait := true } with
    sched := { busy.sched with slips := [⟨3, 776⟩] }
    banks := { busy.banks with standbyState := .pending } }

/-- The stop of `stopping`: the event closed TRUNCATED, the swap taken, the waiting frame logged under STOPPED. -/
theorem test_witness_ArrayStop_clauses :
    (Served (ask stopping .survey .arrayStop []) .survey .arrayStop 7 [] ∧
      (ask stopping .survey .arrayStop []).array = .running) ∧
    ((after (exec (.arrayStop .survey) (ask stopping .survey .arrayStop []))).banks.activeSerial = 2 ∧
      (((after (exec (.arrayStop .survey) (ask stopping .survey .arrayStop []))).port 3).log.kind .frameForm).count = 1 ∧
      (after (exec (.arrayStop .survey) (ask stopping .survey .arrayStop []))).queue.records.map
        (fun e => (e.truncated, e.limit)) = [(true, false)]) ∧
    (idle.trig.state = .idle ∧ (⟨.armed, some ⟨5, 0, 80, 200, 6, [(0, 8)], 1⟩, 1, 0, 0⟩ : Trigger).state = .armed ∧
      busy.trig.state = .opened ∧ busy.trig.candidate = some ⟨5, 0, 80, 200, 6, [(0, 8)], 1⟩) ∧
    ((stopping.port 3).handling ≠ none ∧ (idle.port 0).handling = none ∧ (idle.port 0).waiting = none ∧
      ({ FieldPort.powerOn with waiting := some [2] } : FieldPort).handling = none) :=
  ⟨⟨served_ask (by decide +kernel), by decide +kernel⟩, by decide +kernel, by decide +kernel, by decide +kernel⟩

theorem test_witness_ParamRequests_unknown :
    Served (ask idle .survey .paramSet [0x14, 0, 0, 0, 1]) .survey .paramSet 7 [0x14, 0, 0, 0, 1] ∧
      (∀ i ∈ ParamId.all, i.row.code ≠ field [0x14, 0, 0, 0, 1] 0 1) ∧ ParamId.rehearsal.row.mode = true :=
  ⟨served_ask (by decide +kernel), by decide⟩

/-- A port with a CHANNEL notice raised, and with a reply that one refusal precedes. -/
theorem test_witness_Transmission_clauses :
    (({ CtlPort.powerOn with pending := [.channel, .start] } : CtlPort).pending = .channel :: [.start] ∧
      NoticeKind.start ≠ .channel ∧ CtlPort.powerOn.pending = []) ∧
    (({ CtlPort.powerOn with refusals := [⟨1, 2⟩], reply := some ⟨⟨1, 1, .ok, []⟩, false, 0⟩ } : CtlPort).reply =
      some ⟨⟨1, 1, .ok, []⟩, false, 0⟩) ∧
    (({ CtlPort.powerOn with tx := some ⟨[1], true⟩ } : CtlPort).tx ≠ none) := by decide

/-- A frame of one port in its handling place. -/
def given (s : State) (body : List Byte) (pk : Option Packet) : State :=
  s.setPort 2 { s.port 2 with handling := some ⟨body, pk⟩ }

/-- A frame checked in RUNNING: dropped when nothing of it remains, taken when one sample does. -/
theorem test_witness_FramesHandled_continuity :
    let s := hub6 .live (some rec128)
    (s.array = .running ∧ ((given s (packet 6 201 4000000 10) none).port 2).handling = some ⟨packet 6 201 4000000 10, none⟩ ∧
      samplesHeader? (packet 6 201 4000000 10) = some ⟨6, 201, 4000000, 10, 1⟩ ∧ (s.hub 6).valid = true ∧
      (s.hub 6).port = (2 : FPort).val ∧ (s.hub 6).count = 1) ∧
    ((classOf (s.hub 6).expAsn (s.param .gapFill) 4000000).dropped 4000000 10 = true ∧
      (classOf (s.hub 6).expAsn (s.param .gapFill) 4000001).dropped 4000001 10 = false) ∧
    (((given s (packet 6 201 4000000 10) none).port 2).state = .up) := by decide +kernel

/-- A restart takes channel 255 out of the awaited set of `held`, and leaves that of `manned` as it was. -/
theorem test_witness_FramesHandled_restart :
    held.isMember 255 = true ∧ (held.restartAll (⟨255, 1, 4000, 1, .jump⟩ : Packet).run 4000).isMember 255 = false ∧
    manned.isMember 0 = false ∧ (manned.restartAll (⟨0, 1, 4000, 1, .first⟩ : Packet).run 4000).isMember 0 = false ∧
    ((held.restartAt 255 4000).chan 255).cond = some (CondRec.fresh 1000 7) := by decide +kernel

/-- The write limit of front 5 at its two sides: the tick 775 is stored, the tick 776 needs a slip. -/
theorem test_witness_FramesHandled_writeLimit :
    (held.sched.front = some 5 ∧ (3103 + 1 - 1) / 4 < 16 * 5 + 696 ∧ 16 * 5 + 696 ≤ (3104 + 1 - 1) / 4 ∧
      (⟨255, 1, 3104, 1, .jump⟩ : Packet).run = [255] ∧ (held.chan 255).state ≠ .off ∧ held.sched.state ≠ .stacking) ∧
    (busy.sched.front = some 5 ∧ busy.sched.state = .stacking ∧ (⟨0, 1, 3104, 1, .jump⟩ : Packet).run = [0] ∧
      (busy.chan 0).state ≠ .off) ∧
    (((after (.next (busy.limitThenDeliver 2 ⟨0, 1, 3104, 1, .jump⟩))).sched.slips = [⟨2, 776⟩])) ∧
    ((held.limitThenDeliver 2 ⟨255, 1, 3104, 1, .jump⟩).sched.front = some 6) := by decide +kernel

/-- A jump that needs a slip: the restart of a LAGGING channel precedes the slip's lost check, which leaves it alone. -/
theorem test_jump_restarts_ahead_of_its_slip :
    let c : Channel := { Channel.powerOn with state := .lagging, cond := some rec128 }
    let s : State := { (hub6 .live none).setChan 128 c with sched := ⟨some 62500, .collecting, none, none, []⟩ }
    let t := after (exec (.fieldFrameComplete 2 ((linkFrame (packet 6 201 8000000 1)).drop 2)) s)
    (t.chan 128).state = .settling ∧ (t.chan 128).cond.map (fun r => r.restartTick) = some 2000000 ∧
      t.sched.front = some 124957 := by decide +kernel

theorem test_witness_FramesHandled_delivery :
    (let s := given held (packet 6 201 3103 1) (some ⟨255, 1, 3103, 1, .gap 3100⟩)
     (s.port 2).handling = some ⟨packet 6 201 3103 1, some ⟨255, 1, 3103, 1, .gap 3100⟩⟩ ∧ 3100 < 3103 + 1) ∧
    (let s := hub6 .lost none
     (s.chan 128).state = .lost ∧ (s.chan 0).state = .off ∧
      ((hub6 .await none).chan 128).state = .await ∧
      ({ s with sched := busy.sched } : State).sched.front = some 5 ∧
      320 = max (⟨128, 1, 320, 1, .jump⟩ : Packet).start 320 ∧ 64 * 5 ≤ 320 ∧ 319 < 64 * 5) ∧
    (((hub6 .live (some rec128)).chan 128).cond = some rec128 ∧ 4000010 % 4 ≠ 3 ∧
      (((hub6 .live (some rec128)).chan 128).takeSample Params.powerOn rec128 4000011 (some 5)).2.isSome = true) := by
  decide +kernel

/-- The move to DOWN abandons a frame in reception, and leaves a receiver that has taken 0xB6 where it is. -/
theorem test_link_down_receiver :
    ((linkTimesOut 3 ports).port 3).rx = .hunting false ∧
    ((linkTimesOut 3 (ports.setPort 3 { ports.port 3 with rx := .hunting true })).port 3).rx = .hunting true := by
  decide +kernel

theorem test_witness_ErrorOccurrence_fatal :
    ((strict.port 3).log.kind .frameForm).severity = .fatal ∧ ((strict.port 3).log.kind .frameForm).masked = false ∧
      ((strict.port 3).log.kind .frameForm).flag = false ∧
      (strict.logError 3 .frameForm ⟨none, none, none, none, none, none, none⟩).survey.pending = [.fieldError] ∧
      ((strict.logError 3 .frameForm ⟨none, none, none, none, none, none, none⟩).port 3).state = .failed := by
  decide +kernel

/-- RUNNING with nothing in flight and a full standby bank under validation, the scheduler in each of its states. -/
theorem test_witness_ValidationPassed_running :
    (validating 1 running).array = .running ∧ (validating 1 running).sched.window = none ∧
      (validating 1 running).trig.state = .idle ∧ (validating 1 running).sched.state = .unset ∧
      (validating 1 held).sched.state = .holding ∧ (validating 1 held).sched.window = none ∧
      (validating 1 { held with sched := ⟨some 5, .collecting, none, none, []⟩ }).sched.state = .collecting ∧
      (∀ v, v < (validating 1 held).banks.grid.voxels → (validating 1 held).banks.standby.written v = 256) ∧
      (2 : Nat) = (if (validating 1 held).banks.serialCounter < 65535 then
        (validating 1 held).banks.serialCounter + 1 else 1) := by decide +kernel

theorem test_witness_JournalOffer_clauses :
    (let j : Journal := { Journal.powerOn with post := some 1 }
     j.held = false ∧ j.spent = false ∧ j.quiet = 0 ∧ j.tally = 0 ∧ j.suppresses (.event 1 .red) = false ∧
      (j.offer true 0 (.event 1 .red)).1.held = true ∧ (j.offer true 1 (.event 1 .red)).1.post = some 1 ∧
      (j.offer true 1 (.event 1 .amber)).2 = true ∧ (j.offer false 1 (.event 1 .amber)).2 = false) ∧
    (let j : Journal := { Journal.powerOn with post := some 1, quiet := 1 }
     j.held = false ∧ j.spent = false ∧ 0 < j.quiet ∧ j.post = some 1 ∧ j.suppresses (.event 1 .red) = false ∧
      j.next < 4294967295) ∧
    (someJournal.run = some (.blind, 2) ∧ someJournal.suppresses (.blind 3 0) = true) ∧
    (someJournal.quiet + 1 ≠ 255 ∧ ({ someJournal with quiet := 254 } : Journal).quiet + 1 = 255 ∧ someJournal.post = none) ∧
    (heldJournal.journal.held = true ∧ ({ someJournal with spent := true } : Journal).spent = true) ∧
    ({ Journal.powerOn with next := 4294967295 } : Journal).next = 4294967295 := by decide +kernel

theorem test_witness_Averages :
    ((CondRec.fresh 0 7).last = none ∧ rec128.last = some 90 ∧ rec128.sta = some 1000 ∧ rec128.lta = some 1000 ∧
      0 < rec128.settleRemaining ∧ ({ rec128 with settleRemaining := 0 } : CondRec).settleRemaining = 0) ∧
    (Params.powerOn.get .freezeLevel ≤ ({ rec128 with prevC := Params.powerOn.get .freezeLevel } : CondRec).prevC ∧
      rec128.prevC < Params.powerOn.get .freezeLevel) ∧
    (accumulate (some ⟨5, 10, .pos, 90⟩) 5 (-10) 3 = ⟨5, 10, .pos, 90⟩ ∧
      accumulate (some ⟨5, 10, .pos, 90⟩) 5 (-11) 91 = ⟨5, 11, .neg, 91⟩) ∧
    average 1000 0 4 = 937 := by decide +kernel

/-- A channel in a state with auto-mute on and an established NOISY condition, or none. -/
def muting (st : ChanState) (established : Bool) : State :=
  idle.setChan 0 { Channel.powerOn with
    state := st
    noisyHold := ⟨established, 0⟩
    cfg := { Channel.powerOn.cfg with autoMute := true } }

theorem test_witness_HoldCounts_clauses :
    ((muting .live true).muteDecision 0 |>.chan 0).state = .muted ∧
    ((muting .lagging true).muteDecision 0 |>.chan 0).state = .muted ∧
    ((muting .muted false).muteDecision 0 |>.chan 0).state = .live ∧
    (((muting .live false).chan 0).state = .live ∧ ((muting .muted true).chan 0).state = .muted ∧
      ((muting .await true).chan 0).state = .await) ∧
    ((idle.chan 0).alarms = ⟨false || false, false, false⟩ ∧ (⟨true, false, false⟩ : Alarms) ≠ (idle.chan 0).alarms) ∧
    ((⟨0, false, true, false, true, false, false⟩ : TickReport).clipAfter = true ∧
      ((muting .settling false).supervise 0 ⟨0, true, false, false, false, false, false⟩ |>.chan 0).state = .live) := by
  decide +kernel

/-- The state `ready5` collecting, with the window in the scheduler's hands given. -/
def collecting (w : Option Window) : State := { ready5 with sched := ⟨some 5, .collecting, none, w, []⟩ }

/-- Channel 254 LIVE and a member, its ticks complete through one below what window 5 needs. -/
def short (s : State) : State :=
  s.setChan 254 { Channel.powerOn with
    state := .live, cond := some ⟨some 0, none, some 0, some 0, 0, 0, 0, none, some 94⟩ }

theorem test_witness_Windows_scheduler :
    ((collecting none).sched.front = some 5 ∧ (collecting none).sched.state = .collecting ∧
      ((collecting none).chan 255).state = .live ∧ ((collecting none).chan 255).completeThrough = some 100 ∧
      16 * 5 + 15 + (collecting none).banks.dMax ≤ 100 ∧ 100 < 16 * 6 + 15 + (collecting none).banks.dMax) ∧
    ((∀ j, (collecting none).isMember j = true → ((collecting none).chan j).ready 5 (collecting none).banks.dMax = true) ∧
      (collecting none).param .smin ≤ (collecting none).readyMembers.length) ∧
    ((short (collecting none)).isMember 254 = true ∧ ((short (collecting none)).chan 254).ready 5 0 = false ∧
      (short (collecting none)).param .holdOff ≠ 0 ∧ (short (collecting none)).dueTest.sched.state = .holding) ∧
    (ready5.sched.state = .holding ∧ ready5.sched.window = none ∧ (ready5.holdingTest.sched.state = .stacking) ∧
      (short ready5).holdingTest.sched.state = .holding) ∧
    (running.sched.state = .unset ∧ running.array = .running ∧ idle.array ≠ .running ∧ busy.sched.state = .stacking ∧
      (running.scheduleReport 0 95).sched.front = some 5) := by decide +kernel

theorem test_witness_Windows_lostAndRejoin :
    let c : Channel := { Channel.powerOn with state := .lagging, cond := some ⟨none, none, none, none, 0, 0, 0, none, some 95⟩ }
    let s := { (held.setChan 7 c) with params := Params.powerOn.put .lostDepth 1 }
    ((c.rejoins 5 0 = true ∧ c.rejoins 6 0 = false) ∧ (c.lostAt 6 0 = true ∧ c.lostAt 6 1 = false)) ∧
    ((s.rejoinAll 5).chan 7).state = .live ∧ ((s.rejoinTest 7).chan 7).state = .live ∧
      (s.chan 7).rejoins 5 s.banks.dMax = true ∧ (held.chan 255).rejoins 5 held.banks.dMax = false := by decide +kernel

theorem test_witness_Windows_swapAndSlip :
    ((withStandby idle .pending).array = .stopped ∧ (withStandby running .pending).sched.window = none ∧
      (withStandby running .pending).trig.state = .idle ∧ (withStandby busy .pending).sched.window ≠ none ∧
      busy.array ≠ .stopped ∧ idle.banks.standbyState ≠ .pending) ∧
    ((1 : Nat) = if 65535 < 65535 then 65535 + 1 else 1) ∧
    (stopping.sched.front = some 5 ∧ 5 = (if 775 < 696 then 0 else (775 - 696) / 16 + 1) ∧
      6 = (if 776 < 696 then 0 else (776 - 696) / 16 + 1) ∧ 0 = (if 695 < 696 then 0 else (695 - 696) / 16 + 1)) ∧
    (stopping.resetAsserted = false ∧ stopping.sched.window = some ⟨5, [(0, 8)], 1, 0, false⟩ ∧
      stopping.sched.slips = [⟨3, 776⟩]) := by decide +kernel

/-- Parameters with the confirm limit and E_max at 1. -/
def atOne : Params := (Params.powerOn.put .confirmLimit 1).put .eMax 1

theorem test_witness_TriggerDecision_clauses :
    (atOne.get .confirmLimit ≤ 1 ∧ atOne.get .eMax ≤ 1 ∧ 0 < atOne.get .quietClose) ∧
    (let t : Trigger := ⟨.armed, some (peakRec 160 5), 1, 0, 0⟩
     t.state = .armed ∧ t.candidate = some (peakRec 160 5) ∧ atOne.get .t1 ≤ (peakRec 160 6).b ∧
      atOne.get .kmin ≤ (peakRec 160 6).k ∧ (peakRec 161 5).k < atOne.get .kmin ∧ (peakRec 159 6).b < atOne.get .t1 ∧
      (peakRec 161 6).b > (peakRec 160 5).b ∧ Params.powerOn.get .confirmLimit ≤ t.armedCount + 1) ∧
    (let t : Trigger := ⟨.opened, some (peakRec 160 6), 0, 39, 0⟩
     t.state = .opened ∧ t.candidate = some (peakRec 160 6) ∧ (peakRec 95 1).b < Params.powerOn.get .tRelease ∧
      t.quietCount + 1 < Params.powerOn.get .quietClose ∧
      (Params.powerOn.put .eMax 40).get .eMax ≤ t.openCount + 1) := by decide +kernel

theorem test_witness_EventCloses_clauses :
    (idle.queue.records.length < 32 ∧ 32 ≤ full87.queue.records.length) ∧
    (full87.queue.records = [] ++ eventOf 501 .none :: full87.queue.records.tail ∧
      (eventOf 501 .none).level.code < (eventOf 533 .amber).level.code ∧
      (∀ x ∈ full87.queue.records.tail, (eventOf 501 .none).level.code ≤ x.level.code)) ∧
    (∀ x ∈ full87.queue.records, (eventOf 533 .none).level.code ≤ x.level.code) ∧
    (idle.alert.take (idle.param .amberDwell * 60000) .none 1 = none ∧
      (idle.alert.take (idle.param .amberDwell * 60000) .amber 1).isSome = true) ∧
    ((eventOf 1 .red).rehearsal = false ∧ ({ eventOf 1 .red with rehearsal := true } : EventRecord).rehearsal = true) := by
  decide +kernel

/-- Arrival at tick 26 with a pick radius: the largest c around it, at the pick level and below it. -/
theorem test_witness_EventCloses_picks :
    let s : State := idle.setChan 0 { Channel.powerOn with ring := [(25, ⟨25, 15, .pos⟩), (26, ⟨26, 15, .neg⟩)] }
    let best : Peak := ⟨1, 0, 26, 200, 6, [(0, 8)], 1⟩
    (26 = best.tick + s.banks.active.delay best.voxel (0 : Fin 256).val ∧ 0 < s.param .pickRadius ∧
      Ring.at (s.chan 0).ring 25 = some ⟨25, 15, .pos⟩) ∧
    ({ s with params := s.params.put .pickLevel 15 } : State).pick best 0 = some ⟨0, -1, 15, .up⟩ ∧
    ({ s with params := s.params.put .pickLevel 16 } : State).pick best 0 = none ∧ s.pick best 1 = none := by decide +kernel

/-! ## Witnesses of lines, fields and readings -/

/-- A body of one byte behind a length and a CRC that fails, holding a good frame of its own. -/
def badBytes : List Byte := bytesOf 2 9 ++ [0x00, 0xB6, 0x49] ++ (linkFrame [0x02, 1, 0x01]).drop 2 ++ [0x00, 0x00]

/-- The bytes after a sync pair, at the boundaries of what a receiver waits for; a search with and without a sync pair. -/
theorem test_witness_FramesDecode_clauses :
    ((([] : List Byte) ++ [0]).length < 2 ∧ field [0, 0] 0 2 = 0 ∧ 8192 < field [0x20, 0x01] 0 2 ∧
      field [0, 1, 7, 0] 0 2 = 1 ∧ ([0, 1, 7, 0] : List Byte).length < 1 + 4) ∧
    (crc ([0, 1, 7, 0x1F, 0x99].take 3) ≠ BitVec.ofNat 16 (field [0, 1, 7, 0x1F, 0x99] 3 2) ∧
      crc (((linkFrame [7]).drop 2).take 3) = BitVec.ofNat 16 (field ((linkFrame [7]).drop 2) 3 2)) ∧
    (([0xB6, 0xB6, 0x49, 5] : List Byte) = [0xB6] ++ 0xB6 :: 0x49 :: [5] ∧
      feed 1024 (.hunting true) [0xB6, 0x49] = ([.start], .receiving []) ∧
      feed 1024 (.hunting false) [0x49, 0xB6] = ([], .hunting true)) ∧
    (2 * field [0x7F, 0xFF, 0xFF] 0 3 < 256 ^ 3 ∧ 256 ^ 3 ≤ 2 * field [0x80, 0, 0] 0 3) := by decide +kernel

/-- A frame whose CRC fails is searched again from the byte after its 0xB6, on a control port and on a field port. -/
theorem test_witness_badFrameSearchedAgain :
    (receiving.resetAsserted = false ∧ (receiving.ctl .survey).rx = .line (.receiving []) ∧ field badBytes 0 2 = 9 ∧
      9 + 4 ≤ badBytes.length ∧ crc (badBytes.take 11) ≠ BitVec.ofNat 16 (field badBytes 11 2)) ∧
    (feed 1024 (.receiving []) badBytes).1.length = 3 ∧
    ((after (exec (.controlFrameReceived .survey badBytes) receiving)).ctl .survey).queue = [⟨1, 0x01, []⟩] ∧
    (let t := after (exec (.fieldFrameComplete 3 badBytes) ports)
     ((t.port 3).log.kind .frameCheck).count = 1 ∧ ((t.port 3).log.kind .frameForm).count = 1) := by decide +kernel

theorem test_witness_FramesHandled_line :
    (ports.resetAsserted = false ∧ (ports.port 3).state = .up ∧ (ports.port 2).state = .disabled ∧
      (ports.port 1).state = .failed ∧ (ports.port 3).handling = none ∧ (ports.port 3).rx = .receiving []) ∧
    (let x := handling goodBody
     let y := x.setPort 3 { x.port 3 with waiting := some [1] }
     (x.port 3).waiting = none ∧ (y.port 3).waiting ≠ none ∧ (y.port 3).state = .up) ∧
    (samplesHeader? (packet 15 9 40 32) = some ⟨15, 9, 40, 32, 1⟩ ∧ samplesHeader? (packet 15 9 40 33) = none ∧
      samplesHeader? (packet 15 9 40 0) = none ∧ samplesHeader? ((packet 15 9 40 1).take 15) = none) := by decide +kernel

theorem test_witness_ErrorLogRequests_sets :
    errorSet? 1023 = some ErrKind.all ∧ errorSet? 1024 = none ∧ errorSet? 0 = some [] ∧ errorSetOf [.slip] = [2, 0] ∧
    noticeSet? 0x0204 = some [.event, .injection] ∧ noticeSetOf [.injection, .event] = [2, 4] := by decide +kernel

theorem test_witness_NoticeMasks_raise :
    .event ∈ (masked.ctl .survey).mask ∧ .alert ∉ (masked.ctl .survey).mask ∧ .alert ∉ (masked.ctl .survey).pending ∧
    .alert ∈ ((masked.raise .survey .alert).ctl .survey).pending := by decide +kernel

theorem test_witness_ValidationPassed_written :
    Store.wf ([(bankKey 1 0, 3)] : Bank) = true ∧ Bank.written [(bankKey 1 0, 3)] 1 = 1 ∧
    Bank.delay? [(bankKey 1 0, 3)] 1 255 = none ∧
    Bank.written ((List.range 256).map fun j => (bankKey 1 j, 3)) 1 = 256 := by decide +kernel

/-- A journal whose oldest serial is 2: a read from 2 overwrites nothing, one from 1 does. A flush that ends a post count. -/
theorem test_witness_JournalRequests_clauses :
    (let j : Journal := { Journal.powerOn with entries := [⟨2, .resumed⟩], next := 3 }
     j.overwritten 1 = true ∧ j.overwritten 2 = false ∧ Journal.powerOn.overwritten 0 = false) ∧
    (let s := { idle with journal := { someJournal with run := none, post := some 1 }, params := Params.powerOn.put .journalMode 1 }
     s.journal.quiet ≠ 0 ∧ s.journal.held = false ∧ s.journal.spent = false ∧ s.journal.next < 4294967295 ∧
      (s.journal.post.map fun n => n - 1) = some 0 ∧ s.flushQuiet.journal.held = true) ∧
    (idle.journal.quiet = 0 ∧ heldJournal.journal.held = true) := by decide +kernel

/-- A record one settling tick from its end, and one past it whose last clipped tick lies 125 or 126 ticks back. -/
theorem test_witness_TickCompletion_report :
    let c : Channel := { Channel.powerOn with cfg := { Channel.powerOn.cfg with noise := 1, quiet := 1 } }
    let r (settle clipped : Nat) : CondRec := ⟨some 0, none, some 256, some 256, 0, 0, settle, some clipped, some 200⟩
    let report (settle clipped : Nat) := (c.takeSample Params.powerOn (r settle clipped) 807 (some 1)).2
    (c.takeSample Params.powerOn (r 1 75) 807 (some 1)).1.cond.isSome = true ∧
    report 1 75 = some ⟨201, true, false, true, false, false, false⟩ ∧
    report 0 76 = some ⟨201, false, true, true, true, true, true⟩ ∧
    report 2 74 = some ⟨201, false, false, false, false, false, false⟩ ∧
    Channel.oldestHeld { c with cond := some (r 0 0) } = some 0 := by decide +kernel

/-- Members of A(5): the weight in force and the oldest held tick at their boundaries. -/
theorem test_witness_Windows_members :
    let c (weight restart : Nat) : Channel := { Channel.powerOn with
      state := .live, weightInForce := weight, cond := some ⟨none, none, none, none, 0, restart, 0, none, some 95⟩ }
    let s (weight restart : Nat) : State := held.setChan 3 (c weight restart)
    held.sched.front = some 5 ∧ idle.sched.front = none ∧
    (s 1 80).isMember 3 = true ∧ (s 0 80).isMember 3 = false ∧ (s 1 81).isMember 3 = false ∧
    (c 1 80).ready 5 0 = true ∧ (c 1 80).ready 5 1 = false ∧ (c 1 81).ready 5 0 = false := by decide +kernel

/-- A contributor at the pick level, one below it, and an absent read at a pick level of 0. -/
theorem test_witness_BrightnessAndPeak_record :
    let s : State := idle.setChan 0 { Channel.powerOn with ring := [(16, ⟨16, 24, .pos⟩)] }
    let w : Window := ⟨1, [(0, 8), (1, 8)], 7, 0, false⟩
    let k (level : Nat) : Nat := (State.windowPeak { s with params := s.params.put .pickLevel level } w).k
    (s.windowPeak w).tick = 16 ∧ (s.windowPeak w).b = 192 ∧ s.readC 0 16 = 24 ∧ s.readC 1 16 = 0 ∧ s.readC 0 1040 = 0 ∧
    k 24 = 1 ∧ k 25 = 0 ∧ k 0 = 1 := by decide +kernel

/-- Around the journal level of 96 in IDLE: a quiet window, then PEAK; BLIND; a close. -/
theorem test_witness_TriggerDecision_result :
    ((idle.takeResult (.peak (peakRec 95 1))).journal.quiet = 1 ∧
      (idle.takeResult (.peak (peakRec 96 1))).journal.entries.map (fun e => e.body) = [.peak 1 0 0 96 1 1] ∧
      (idle.takeResult (.blind 1 2 9)).journal.entries.map (fun e => e.body) = [.blind 1 2]) ∧
    ((idle.trig.take atOne (.peak (peakRec 160 6))).close.isSome = true ∧
      (idle.trig.take atOne (.peak (peakRec 159 6))).close = none) := by decide +kernel

/-- Two enabled rules over a voxel: the first counts. No rule over it: the default zone. The levels at their thresholds. -/
theorem test_witness_EventCloses_zones :
    let g : Grid := { BankCtl.powerOn.grid with nx := 3, ny := 2, nz := 2 }
    let r (lo hi : Nat) : ZoneRule := { ZoneRule.powerOn with enabled := true, ix0 := lo, ix1 := hi, iy1 := 1, iz1 := 1 }
    let s : State := { idle with
      banks := { BankCtl.powerOn with grid := g }, zones := vset (vset idle.zones 2 (r 2 2)) 5 (r 1 2) }
    (g.coords 11 = (2, 1, 1) ∧ 11 = 2 + 3 * (1 + 2 * 1) ∧ g.coords 3 = (0, 1, 0)) ∧
    s.zoneOf 11 = 2 ∧ s.zoneOf 10 = 5 ∧ s.zoneOf 3 = 8 ∧
    (let th : Threshold := ⟨320, 640⟩
     th.level 640 = .red ∧ th.level 639 = .amber ∧ th.level 320 = .amber ∧ th.level 319 = .none) := by decide +kernel

/-- A count past a shortened hold: set to 0 by a raw condition against the run, complete with one that is not (log 44). -/
theorem test_shortened_hold :
    (⟨false, 500⟩ : Hold).count false 125 125 = ⟨false, 0⟩ ∧ (⟨false, 500⟩ : Hold).count true 125 125 = ⟨true, 0⟩ ∧
    (⟨true, 500⟩ : Hold).count true 125 125 = ⟨true, 0⟩ ∧ (⟨true, 500⟩ : Hold).count false 125 125 = ⟨false, 0⟩ := by decide

/-- Behind a frame begun before the reset a waiting reply goes ahead of PORT RESET; without one PORT RESET is next (log 46). -/
theorem test_first_frame_after_port_reset :
    let x : CtlPort := { CtlPort.powerOn with tx := some ⟨[1], false⟩, pending := [.portReset] }
    let y : CtlPort := { x with reply := some ⟨⟨7, 0x01, .ok, []⟩, false, 0⟩ }
    let after (x : CtlPort) := (after (exec (.transmissionEnd .plant) (idle.setCtl .plant x))).ctl .plant
    ((after x).pending = [] ∧ (after y).pending = [.portReset] ∧ (after y).tx = some ⟨linkFrame [3, 7, 1, 0], true⟩) := by
  decide +kernel

/-! ## Witnesses: what every step keeps -/

/-- A step from a RUNNING part answers a next state in which it is still RUNNING. -/
theorem test_witness_stepsRunOn : ∃ t, step running = .next t ∧ t.array = .running :=
  ⟨after (step running), by rfl, by decide +kernel⟩

theorem test_witness_recordLaws :
    LinesFollowLevel running ∧ TriggerOk running.trig ∧ RunningHasBank running ∧ ParamsOk running.params ∧
      ZonesOk running.zones ∧ ∀ c, (running.ctl c).pending = [] := by
  refine ⟨⟨by decide, by decide⟩, rfl, fun _ => rfl, ⟨fun i => by cases i <;> decide, by decide, by decide, by decide⟩,
    by unfold ZonesOk; decide +kernel, fun c => by cases c <;> rfl⟩

theorem test_witness_ChannelsKeepTheirLaw : ChannelsOk busy := by
  have h : ∀ j, (busy.chan j).cond.isSome = (busy.chan j).state.conditioned ∧ Store.wf (busy.chan j).ring = true := by
    decide +kernel
  exact fun j => ⟨(h j).1, (h j).2⟩

theorem test_witness_ControlPortsKeepTheirLaw : ∀ c, CtlOk c (masked.ctl c) := by
  intro c
  cases c <;> exact ⟨by decide, by decide, by decide, by decide, by decide, by decide⟩

theorem test_witness_EventsAndJournalKeepTheirLaws : QueueOk queued.queue ∧ JournalOk someJournal :=
  ⟨⟨by decide +kernel, by decide +kernel, by decide +kernel, by decide +kernel⟩,
    ⟨by decide, by decide, by decide, by decide, by decide⟩⟩

theorem test_witness_TablesStayInRange : HubsOk ports.hubs := by
  have h1 : ∀ h, (vget ports.hubs h).valid = true →
      (vget ports.hubs h).port < 4 ∧ (vget ports.hubs h).base + (vget ports.hubs h).count ≤ 256 := by decide +kernel
  have h2 : ∀ g h, g ≠ h → (vget ports.hubs g).valid = true → (vget ports.hubs h).valid = true →
      (vget ports.hubs g).shares (vget ports.hubs h).base (vget ports.hubs h).count = false := by decide +kernel
  exact ⟨h1, h2⟩

theorem test_witness_TriggerAndBankKeepTheirLaws : TriggerOk busy.trig ∧ BanksOk running.banks :=
  ⟨⟨by decide, by decide⟩, ⟨by decide, by decide, by decide, by decide⟩⟩

theorem test_witness_FrontNeverGoesBack : SchedOk busy :=
  ⟨by decide +kernel, by decide +kernel, by decide +kernel, fun w h => (by cases h; rfl), fun h => absurd rfl h⟩

end Sys2Proof.Machine.Slice0Test
end

