-- ==== Sys2Proof/Proofs/Conditioning.lean ====
section
/-!
PROOFS. The conditioning unit (01): the bounds of the ratio and of the characteristic function, the c a completed tick
keeps, and what the last sample of a tick does to its channel.
-/

namespace Sys2Proof.Machine

/-! ## Ratio and characteristic function (R11, R12) -/

theorem ratio_le_255 (floor sta lta : Nat) : ratio floor sta lta ≤ 255 := Nat.min_le_left _ _

/-- An STA below 17/16 of the divisor leaves the quotient of R11 below 17. -/
theorem ratio_le_16_of_sta_lt {floor sta lta : Nat} (hd : 0 < max lta (256 * floor))
    (h : 16 * sta < 17 * max lta (256 * floor)) : ratio floor sta lta ≤ 16 := by
  have hq : 16 * sta / max lta (256 * floor) < 17 := (Nat.div_lt_iff_lt_mul hd).2 h
  calc ratio floor sta lta ≤ 16 * sta / max lta (256 * floor) := Nat.min_le_right _ _
    _ ≤ 16 := Nat.le_of_lt_succ hq

/-- The truncated subtraction of `charFn` is the larger of 0 and R − 16 over the integers. -/
theorem charFn_eq_max (floor sta lta : Nat) :
    (charFn floor sta lta : Int) = max 0 ((ratio floor sta lta : Int) - 16) := by
  rw [charFn]
  omega

theorem charFn_le_239 (floor sta lta : Nat) : charFn floor sta lta ≤ 239 :=
  Nat.sub_le_sub_right (ratio_le_255 floor sta lta) 16

theorem charFn_eq_zero_iff (floor sta lta : Nat) : charFn floor sta lta = 0 ↔ ratio floor sta lta ≤ 16 :=
  Nat.sub_eq_zero_iff_le

theorem charFn_of_ratio_255 {floor sta lta : Nat} (h : ratio floor sta lta = 255) : charFn floor sta lta = 239 := by
  rw [charFn, h]

/-! ## The c a completed tick keeps (R12, R14) -/

theorem CondRec.complete_prevC_settling {r : CondRec} (h : 0 < r.settleRemaining) (ps : Params) (cfg : ChanConfig)
    (p : PartialTick) : (r.complete ps cfg p).prevC = 0 := if_pos h

theorem CondRec.complete_prevC_settled {r : CondRec} (h : r.settleRemaining = 0) (ps : Params) (cfg : ChanConfig)
    (p : PartialTick) :
    (r.complete ps cfg p).prevC = charFn (ps.get .ltaFloor) (nextSta (ps.get .ks) r.sta p.a)
      (nextLta (ps.get .kl) (r.frozen (ps.get .freezeLevel)) r.lta p.a) := if_neg (by omega)

/-! ## The last sample of a tick (R8, R15, R18) -/

theorem Store.read_write_same {α : Type} (m : Store α) (k : Nat) (v : α) :
    Store.read (Store.write m k v) k = some v := by
  rw [Store.read_write, if_pos rfl]

/-- The sample at ASN 4k + 3 completes its tick: the record, the one slot stored and the report. -/
theorem Channel.takeSample_last {r : CondRec} {asn : Nat} {x : Option Int} {p : PartialTick} {r1 : CondRec}
    (hasn : asn % 4 = 3) (hp : p = accumulate r.part (asn / 4) (r.difference x) (magnitude x))
    (hr1 : r1 = { r with last := x.or r.last, part := some p }) (c : Channel) (ps : Params) :
    c.takeSample ps r asn x =
      ({ c with
          cond := some (r1.complete ps c.cfg p)
          ring := Store.write c.ring (p.tick % 1024) ⟨p.tick, (r1.complete ps c.cfg p).prevC, p.sign⟩ },
        some (tickReport c.cfg p r1 (r1.complete ps c.cfg p))) := by
  subst hp hr1
  exact if_pos hasn

/-! ## The obligation -/

/-- Settles O45: the bounds of the ratio give the values of c, and the slot the last sample of a tick writes is read back. -/
theorem characteristicFunction : Obligations.CharacteristicFunction := by
  unfold Obligations.CharacteristicFunction
  constructor
  case left =>
    rintro ps cfg r p sta lta c d hsta hlta rfl rfl
    refine ⟨charFn_eq_max _ _ _, charFn_le_239 _ _ _, ?ratio16, ?belowDivisor, charFn_of_ratio_255, ?settling, ?settled⟩
    case ratio16 => exact fun h => (charFn_eq_zero_iff _ _ _).2 h.le
    case belowDivisor => exact fun hd h => (charFn_eq_zero_iff _ _ _).2 (ratio_le_16_of_sta_lt hd h)
    case settling => exact fun h => CondRec.complete_prevC_settling h ps cfg p
    case settled =>
      intro h
      rw [hsta, hlta]
      exact CondRec.complete_prevC_settled h ps cfg p
  case right =>
    intro ch ps r asn x p hasn hp
    rw [Channel.takeSample_last hasn hp rfl]
    exact ⟨_, rfl, rfl, _, Store.read_write_same _ _ _, rfl, rfl⟩

end Sys2Proof.Machine
end

section
/-!
PROOFS. The voxel grid and the delay banks (05): what the validation scan finds, and the end of a validation that stops at
an incomplete voxel.
-/

namespace Sys2Proof.Machine

/-! ## The validation scan (R92) -/

/-- The scan stops at a voxel exactly when that voxel lies in the grid, its map is not full, and every map below it is. -/
theorem Bank.firstIncomplete_eq_some_iff {b : Bank} {voxels v : Nat} :
    b.firstIncomplete voxels = some v ↔ v < voxels ∧ b.written v ≠ 256 ∧ ∀ u, u < v → b.written u = 256 := by
  rw [Bank.firstIncomplete, List.find?_range_eq_some]
  simp only [List.mem_range, bne_iff_ne, Bool.not_eq_true', bne_eq_false_iff_eq]
  exact and_left_comm

/-! ## A scan that stops (R93) -/

theorem validationFails_of_firstIncomplete {s : State} {v : Nat} (hc : s.banks.standbyState = .checking)
    (hv : s.banks.standby.firstIncomplete s.banks.grid.voxels = some v) :
    validationFails s = s.endActivation (.incomplete v) := by
  simp only [validationFails, hc, hv]

/-- Out of RESET, VALIDATION_FAILED is the failure of the scan and then the transmit choices. -/
theorem exec_validationFailed_out {s : State} (hr : s.resetAsserted = false) :
    exec .validationFailed s = .next (validationFails s).transmitBoth :=
  congrArg Host.Outcome.next (whole_out hr)

/-- Settles O35: the voxel of the hypotheses is the one the scan stops at, and the activation ends there as INCOMPLETE. -/
theorem validationFailed : Obligations.ValidationFailed := by
  unfold Obligations.ValidationFailed
  intro s v hr hc hgrid hopen hfull
  have hv : s.banks.standby.firstIncomplete s.banks.grid.voxels = some v :=
    Bank.firstIncomplete_eq_some_iff.2 ⟨hgrid, hopen, hfull⟩
  rw [exec_validationFailed_out hr, validationFails_of_firstIncomplete hc hv]
  rfl

end Sys2Proof.Machine
end

section
/-!
PROOFS. What every step keeps: each record's law, the shape of the scheduler record, and the front. The work inside a step
keeps them by `Keeps`; here are the effects that `Keeps` leaves out: RESET, run control, the requests that set a table, the
lines of the ports, and the millisecond.
-/

namespace Sys2Proof.Machine

/-! ## The reset state -/

theorem Params.get_powerOn (i : ParamId) : Params.powerOn.get i = i.row.default := by
  cases i <;> rfl

theorem ParamsOk.powerOn : ParamsOk Params.powerOn where
  range i := by rw [Params.get_powerOn]; cases i <;> decide
  shut := by decide
  circ := by decide
  stim := by decide

theorem CtlOk.powerOn (c : CPort) : CtlOk c CtlPort.powerOn :=
  ⟨Nat.zero_le _, Nat.zero_le _, List.nodup_nil, by simp [CtlPort.powerOn], by simp [CtlPort.powerOn], Nat.zero_le _⟩

theorem JournalOk.powerOn : JournalOk Journal.powerOn :=
  ⟨Nat.zero_le _, List.Pairwise.nil, by simp [Journal.powerOn], by decide, by decide⟩

theorem QueueOk.powerOn : QueueOk EventQueue.powerOn :=
  ⟨Nat.zero_le _, List.Pairwise.nil, by simp [EventQueue.powerOn], Nat.zero_le _⟩

theorem BanksOk.powerOn : BanksOk BankCtl.powerOn :=
  ⟨fun _ => ⟨rfl, rfl⟩, fun h => (nomatch h), rfl, rfl⟩

theorem vget_replicate {α : Type} {n : Nat} (x : α) (i : Fin n) : vget (Vector.replicate n x) i = x := by
  simp [vget]

theorem ChanOk.powerOn : ChanOk Channel.powerOn := ⟨rfl, rfl⟩

theorem State.reset_chan (j : Fin 256) : State.reset.chan j = Channel.powerOn := vget_replicate _ j

theorem State.reset_port (p : FPort) : State.reset.port p = FieldPort.powerOn := vget_replicate _ p

theorem ZonesOk.powerOn : ZonesOk State.reset.zones := fun i => by
  rw [show vget State.reset.zones i = ZoneRule.powerOn from vget_replicate _ i]
  decide

theorem HubsOk.powerOn : HubsOk State.reset.hubs := by
  have invalid : ∀ h, (vget State.reset.hubs h).valid = true → False := fun h hv => by
    rw [show vget State.reset.hubs h = HubEntry.powerOn from vget_replicate _ h] at hv
    cases hv
  exact ⟨fun h hv => (invalid h hv).elim, fun g _ _ hv _ => (invalid g hv).elim⟩

/-- A state whose scheduler record is that of UNSET keeps the shape. -/
theorem SchedOk.ofPowerOn {s : State} (h : s.sched = Sched.powerOn) : SchedOk s := by
  constructor <;> simp [h, Sched.powerOn]

/-- Settles O60: each record's power-on value satisfies its law. -/
theorem resetKeepsEveryLaw : Obligations.ResetKeepsEveryLaw :=
  ⟨⟨rfl, rfl⟩, JournalOk.powerOn, QueueOk.powerOn, fun c => by cases c <;> exact CtlOk.powerOn _,
    fun j => by rw [State.reset_chan]; exact ChanOk.powerOn, ParamsOk.powerOn, ZonesOk.powerOn, HubsOk.powerOn,
    TriggerOk.powerOn, BanksOk.powerOn, (fun h => by cases h), SchedOk.ofPowerOn rfl⟩

/-! ## What a command keeps -/

/-- Every record's law is kept, the scheduler's shape apart. -/
structure RecordsKept (s t : State) : Prop where
  lines : LinesFollowLevel s → LinesFollowLevel t
  journal : JournalOk s.journal → JournalOk t.journal
  queue : QueueOk s.queue → QueueOk t.queue
  ctl : ∀ c, CtlOk c (s.ctl c) → CtlOk c (t.ctl c)
  channels : ChannelsOk s → ChannelsOk t
  params : ParamsOk s.params → ParamsOk t.params
  zones : ZonesOk s.zones → ZonesOk t.zones
  hubs : HubsOk s.hubs → HubsOk t.hubs
  trigger : TriggerOk s.trig → TriggerOk t.trig
  banks : BanksOk s.banks → RunningHasBank s → BanksOk t.banks ∧ RunningHasBank t

/-- Every law is kept, and the front does not go back while the array stays RUNNING. -/
structure LawsKept (s t : State) : Prop extends RecordsKept s t where
  sched : SchedOk s → SchedOk t
  front : SchedOk s → s.array = .running → t.array = .running → FrontNotBack s t

theorem RecordsKept.refl (s : State) : RecordsKept s s :=
  ⟨id, id, id, fun _ => id, id, id, id, id, id, fun h g => ⟨h, g⟩⟩

theorem RecordsKept.trans {s t u : State} (h : RecordsKept s t) (g : RecordsKept t u) : RecordsKept s u :=
  ⟨g.lines ∘ h.lines, g.journal ∘ h.journal, g.queue ∘ h.queue, fun c => g.ctl c ∘ h.ctl c, g.channels ∘ h.channels,
    g.params ∘ h.params, g.zones ∘ h.zones, g.hubs ∘ h.hubs, g.trigger ∘ h.trigger, fun hb hr =>
      have ⟨hb', hr'⟩ := h.banks hb hr
      g.banks hb' hr'⟩

theorem Keeps.records {s t : State} (h : Keeps s t) : RecordsKept s t :=
  ⟨h.lines, h.journal, h.queue, h.ctl, h.channels, h.params ▸ id, h.zones ▸ id, h.hubs, h.trigger, fun hb hr =>
    ⟨h.banks hb, fun ha => h.active (hr (h.array ▸ ha))⟩⟩

theorem Keeps.laws {s t : State} (h : Keeps s t) : LawsKept s t :=
  ⟨h.records, fun g => (h.sched g).1, fun g _ _ => (h.sched g).2⟩

theorem LawsKept.refl (s : State) : LawsKept s s := (Keeps.refl s).laws

theorem FrontNotBack.trans {s t u : State} (h : FrontNotBack s t) (g : FrontNotBack t u) : FrontNotBack s u :=
  fun f hf =>
    have ⟨f1, h1, l1⟩ := h f hf
    have ⟨f2, h2, l2⟩ := g f1 h1
    ⟨f2, h2, l1.trans l2⟩

/-- Laws kept on the way to a state that has the array state of the start. -/
theorem LawsKept.trans_of_array {s t u : State} (h : LawsKept s t) (ha : t.array = s.array) (g : LawsKept t u) :
    LawsKept s u :=
  ⟨h.toRecordsKept.trans g.toRecordsKept, g.sched ∘ h.sched, fun hs hr hu =>
    (h.front hs hr (ha.trans hr)).trans (g.front (h.sched hs) (ha.trans hr) hu)⟩

theorem Keeps.trans_laws {s t u : State} (h : Keeps s t) (g : LawsKept t u) : LawsKept s u :=
  h.laws.trans_of_array h.array g

theorem LawsKept.trans_keeps {s t u : State} (h : LawsKept s t) (g : Keeps t u) : LawsKept s u :=
  ⟨h.toRecordsKept.trans g.records, fun hs => (g.sched (h.sched hs)).1, fun hs hr hu =>
    (h.front hs hr (g.array ▸ hu)).trans (g.sched (h.sched hs)).2⟩

/-- A record changed beside the scheduler and the array state. -/
theorem RecordsKept.laws {s t : State} (h : RecordsKept s t) (hs : t.sched = s.sched) (ha : t.array = s.array) :
    LawsKept s t :=
  ⟨h, fun g => (sameSched hs ha g).1, fun g _ _ => (sameSched hs ha g).2⟩

/-- Out of RUNNING the front has nothing to keep. -/
theorem RecordsKept.laws_of_leaves_running {s t : State} (h : RecordsKept s t) (hs : SchedOk s → SchedOk t)
    (ha : s.array ≠ .running ∨ t.array ≠ .running) : LawsKept s t :=
  ⟨h, hs, fun _ hr hu => ha.elim (absurd hr) (absurd hu)⟩

theorem LawsKept.ite {s t u : State} {p : Prop} [Decidable p] (h : LawsKept s t) (g : LawsKept s u) :
    LawsKept s (if p then t else u) := by
  split
  · exact h
  · exact g

/-- A step of the part out of RESET, then the transmit choices. -/
theorem LawsKept.whole {f : State → State} {s : State} (h : LawsKept s (f s)) : LawsKept s (whole f s) :=
  LawsKept.ite (LawsKept.refl s) (h.trans_keeps (Keeps.transmitBoth _))

/-! ## RESET and initialization (11) -/

/-- Every record at its power-on value, whatever was before. -/
theorem LawsKept.poweredOn (s : State) : LawsKept s s.poweredOn := by
  obtain ⟨lines, journal, queue, ctl, channels, params, zones, hubs, trigger, banks, -, -⟩ := resetKeepsEveryLaw
  refine RecordsKept.laws_of_leaves_running ?_ (fun _ => SchedOk.ofPowerOn rfl) (.inr (by simp [State.poweredOn, State.reset]))
  exact ⟨fun _ => lines, fun _ => journal, fun _ => queue, fun c _ => by cases c <;> exact CtlOk.powerOn _,
    fun _ => channels, fun _ => params, fun _ => zones, fun _ => hubs, fun _ => trigger, fun _ _ => ⟨banks, fun h => by cases h⟩⟩

/-- The RESET input and the waiting commands are in no law. -/
theorem LawsKept.ofInput (s : State) (r : Bool) (l : List Instr) :
    LawsKept s { s with resetAsserted := r, pending := l } :=
  RecordsKept.laws ⟨id, id, id, fun c => by cases c <;> exact id, id, id, id, id, id, fun h g => ⟨h, g⟩⟩ rfl rfl

theorem LawsKept.inReset (s : State) : LawsKept s s.inReset := by
  have h := LawsKept.poweredOn s
  have g := LawsKept.ofInput s.poweredOn true s.pending
  exact ⟨h.toRecordsKept.trans g.toRecordsKept, g.sched ∘ h.sched, fun _ _ hu => by cases hu⟩

theorem RecordsKept.ofArray (s : State) (a : ArrayState) (h : a = .running → s.banks.hasActive = true) :
    RecordsKept s { s with array := a } :=
  ⟨id, id, id, fun c => by cases c <;> exact id, id, id, id, id, id, fun hb _ => ⟨hb, h⟩⟩

theorem LawsKept.initializationEnds (s : State) : LawsKept s (initializationEnds s) := by
  unfold Machine.initializationEnds
  split
  next h =>
    refine LawsKept.trans_keeps (t := { s with array := .stopped }) ?_
      (Keeps.raiseBoth _ .start fun c => by cases c <;> rfl)
    have ha : s.array ≠ .running := by rw [h]; decide
    exact (RecordsKept.ofArray s .stopped (fun h => by cases h)).laws_of_leaves_running
      (fun g => ⟨g.front, g.timer, g.flight, g.named, fun _ => g.stopped ha⟩) (.inl ha)
  next => exact LawsKept.refl s

/-! ## The lines of the ports, and the timers -/

theorem Keeps.rxEvent (s : State) (p : FPort) (e : RxEvent) : Keeps s (s.rxEvent p e) := by
  unfold State.rxEvent
  refine Keeps.ite ?_ (Keeps.refl s)
  cases e with
  | start => exact Keeps.setPort s _ _
  | badLength len => exact Keeps.logError s _ _ _
  | badCrc len body => exact Keeps.logError s _ _ _
  | good body => exact Keeps.offerFrame s _ _

theorem Keeps.lineBytes (p : FPort) (bs : List Byte) (s : State) : Keeps s (lineBytes p bs s) := by
  unfold Machine.lineBytes
  refine Keeps.ite ?_ (Keeps.refl s)
  exact (Keeps.foldl s _ fun t e => Keeps.rxEvent t p e).trans (Keeps.ite (Keeps.setPort _ _ _) (Keeps.refl _))

theorem Keeps.linkTimesOut (p : FPort) (s : State) : Keeps s (linkTimesOut p s) :=
  Keeps.ite ((Keeps.setPort s _ _).trans (Keeps.logError _ _ _ _)) (Keeps.refl s)

theorem Keeps.tickLink (s : State) (p : FPort) : Keeps s (tickLink s p) := by
  unfold Machine.tickLink
  split
  · exact Keeps.ite (Keeps.linkTimesOut p s) (Keeps.setPort s _ _)
  · exact Keeps.refl s

theorem Keeps.tickHoldOff (s : State) : Keeps s (tickHoldOff s) := by
  unfold Machine.tickHoldOff
  split
  next n hs ht =>
    refine Keeps.ite (Keeps.holdOffRunsOut s) (Keeps.ofSched s _ fun h => ?_)
    exact ⟨⟨h.front, by simp [hs], h.flight, h.named, h.stopped⟩, fun f hf => ⟨f, hf, le_rfl⟩⟩
  next => exact Keeps.refl s

theorem Keeps.tickDwell (s : State) : Keeps s (tickDwell s) := by
  unfold Machine.tickDwell
  split
  · exact Keeps.ite (Keeps.dwellRunsOut s) (Keeps.setAlert s _ rfl)
  · exact Keeps.refl s
  · exact Keeps.refl s

theorem Keeps.millisecond (s : State) : Keeps s (millisecond s) :=
  ((Keeps.foldl s _ Keeps.tickLink).trans (Keeps.tickHoldOff _)).trans (Keeps.tickDwell _)

theorem Keeps.validationPasses (s : State) : Keeps s (validationPasses s) := by
  unfold Machine.validationPasses
  refine Keeps.ite ?_ (Keeps.refl s)
  have h := Keeps.ofBanks s
    { s.banks with standbyState := .pending, validated := s.banks.standby.largest s.banks.grid.voxels }
    (fun h => ⟨h.absent, h.present, h.active, h.standby⟩) rfl id
  exact Keeps.ite (h.trans ((Keeps.swapBanks _).trans (Keeps.afterSwap _))) h

theorem Keeps.validationFails (s : State) : Keeps s (validationFails s) := by
  unfold Machine.validationFails
  split
  · exact Keeps.endActivation s _
  · exact Keeps.refl s

/-! ## Control ports (10) -/

theorem CtlOk.place {c : CPort} {x : CtlPort} (h : CtlOk c x) (r : Request) : CtlOk c (x.place r) := by
  unfold CtlPort.place
  split
  · exact ⟨by simpa using ‹_›, h.refusals, h.once, h.unmasked, h.received, h.resets⟩
  · split
    · exact ⟨h.queue, by simpa using ‹_›, h.once, h.unmasked, h.received, h.resets⟩
    · exact h

theorem CtlOk.rxEvent {c : CPort} {x : CtlPort} (h : CtlOk c x) (e : RxEvent) : CtlOk c (x.rxEvent e) := by
  unfold CtlPort.rxEvent
  split
  · split
    · exact h.place _
    · exact h
  all_goals exact h

/-- A port with other frames on its lines, and none of the bounded places changed. -/
theorem CtlOk.congr {c : CPort} {x y : CtlPort} (h : CtlOk c x) (hq : y.queue = x.queue)
    (hr : y.refusals = x.refusals) (hp : y.pending = x.pending) (hm : y.mask = x.mask) (hs : y.resets = x.resets) :
    CtlOk c y :=
  h.sent hq (hr ▸ List.Sublist.refl _) (hp ▸ List.Sublist.refl _) hm hs

theorem CtlOk.bytes {c : CPort} {x : CtlPort} (h : CtlOk c x) (bs : List Byte) : CtlOk c (x.bytes bs) := by
  unfold CtlPort.bytes
  split
  · exact (foldl_keeps (P := CtlOk c) _ (fun y e _ hy => hy.rxEvent e) x h).congr rfl rfl rfl rfl rfl
  · exact h

theorem CtlOk.resetTaken {c : CPort} {x : CtlPort} (h : CtlOk c x) : CtlOk c x.resetTaken := by
  refine ⟨Nat.zero_le _, Nat.zero_le _, List.nodup_nil, by simp [CtlPort.resetTaken], by simp [CtlPort.resetTaken], ?_⟩
  have := h.resets
  unfold CtlPort.resetTaken
  dsimp only
  split <;> omega

theorem Keeps.controlBytes (c : CPort) (bs : List Byte) (s : State) : Keeps s (controlBytes c bs s) :=
  Keeps.setCtl s c _ fun h => h.bytes bs

theorem Keeps.transmissionEnds (c : CPort) (s : State) : Keeps s (transmissionEnds c s) :=
  Keeps.setCtl s c _ fun h => by
    unfold CtlPort.sent
    split
    · exact h.congr rfl rfl rfl rfl rfl
    · exact h

theorem Keeps.portResets (c : CPort) (s : State) : Keeps s (portResets c s) := by
  unfold Machine.portResets
  have h := (Keeps.setCtl s c _ fun h => h.resetTaken).trans (Keeps.raise _ c .portReset (by cases c <;> rfl))
  split
  · cases c with
    | plant => exact h.trans (Keeps.raise _ _ _ rfl)
    | survey => exact h
  · exact Keeps.refl s

theorem Keeps.breakEnds (c : CPort) (s : State) : Keeps s (breakEnds c s) := by
  unfold Machine.breakEnds
  split
  · exact Keeps.setCtl s c _ fun h => h.congr rfl rfl rfl rfl rfl
  · exact Keeps.refl s

theorem Keeps.popRequest (s : State) (c : CPort) : Keeps s (s.popRequest c) :=
  Keeps.setCtl s c _ fun h =>
    ⟨le_trans (by simp) h.queue, h.refusals, h.once, h.unmasked, h.received, h.resets⟩

theorem Keeps.putReply (s : State) (c : CPort) (r : Reply) : Keeps s (s.putReply c r) :=
  Keeps.setCtl s c _ fun h => h.congr rfl rfl rfl rfl rfl

theorem Keeps.takeUnknown (c : CPort) (s : State) : Keeps s (takeUnknown c s) := by
  unfold Machine.takeUnknown
  split
  · exact Keeps.ite ((Keeps.popRequest s c).trans (Keeps.putReply _ _ _)) (Keeps.refl s)
  · exact Keeps.refl s

end Sys2Proof.Machine
end

section
/-!
PROOFS. What every step keeps, ended: the owner of each request, every command, and the obligations on steps and on their
invariants.
-/

namespace Sys2Proof.Machine

/-! ## The requests that set a table -/

/-- A parameter is found again at its place in the list of all. -/
theorem ParamId.all_place (i : ParamId) : ParamId.all[i.place.val]? = some i := by
  cases i <;> rfl

theorem ParamId.place_injective {i k : ParamId} (h : i.place = k.place) : i = k :=
  Option.some.inj (by rw [← i.all_place, ← k.all_place, h])

theorem Params.get_put (ps : Params) (i k : ParamId) (v : Nat) :
    (ps.put i v).get k = if i = k then v else ps.get k := by
  unfold Params.get Params.put
  rw [vget_vset]
  by_cases h : i = k
  · rw [if_pos h, if_pos (h ▸ rfl)]
  · rw [if_neg h, if_neg fun hp => h (ParamId.place_injective hp)]

/-- The value given to a parameter that lies in its range, and on the right side of a partner's. -/
theorem ParamsOk.put {ps : Params} (h : ParamsOk ps) (i : ParamId) (v : Nat)
    (range : i.row.least ≤ v ∧ v ≤ i.row.greatest)
    (below : ∀ red, i.partner = some (red, true) → v ≤ ps.get red)
    (above : ∀ amber, i.partner = some (amber, false) → ps.get amber ≤ v) : ParamsOk (ps.put i v) := by
  have pair : ∀ amber red : ParamId, amber.partner = some (red, true) → red.partner = some (amber, false) →
      ps.get amber ≤ ps.get red → (ps.put i v).get amber ≤ (ps.put i v).get red := by
    intro amber red ha hr hle
    rw [Params.get_put, Params.get_put]
    split
    next hi =>
      subst hi
      rw [if_neg (by rintro rfl; rw [ha] at hr; cases hr)]
      exact below red ha
    next =>
      split
      next hi =>
        subst hi
        exact above amber hr
      next => exact hle
  refine ⟨fun k => ?_, pair _ _ rfl rfl h.shut, pair _ _ rfl rfl h.circ, pair _ _ rfl rfl h.stim⟩
  rw [Params.get_put]
  split
  next hi => exact hi ▸ range
  next => exact h.range k

/-- The thresholds of the default zone share one range. -/
theorem ParamId.partner_row {i k : ParamId} {b : Bool} (h : i.partner = some (k, b)) : k.row.least = 0 ∧
    i.row.least = 0 ∧ k.row.greatest = i.row.greatest := by
  unfold ParamId.partner at h
  split at h <;> cases h <;> exact ⟨rfl, rfl, rfl⟩

theorem ParamId.least_le_greatest (i : ParamId) : i.row.least ≤ i.row.greatest := by
  cases i <;> decide

theorem ParamsOk.put_clamped {ps : Params} (h : ParamsOk ps) (i : ParamId) (v : Nat) :
    ParamsOk (ps.put i (ps.clamped i v)) := by
  have hi := i.least_le_greatest
  have w : i.row.least ≤ max i.row.least (min i.row.greatest v) ∧
      max i.row.least (min i.row.greatest v) ≤ i.row.greatest := by omega
  match hp : i.partner with
  | none =>
    have hc : ps.clamped i v = max i.row.least (min i.row.greatest v) := by simp [Params.clamped, hp]
    exact h.put i _ (hc ▸ w) (by simp [hp]) (by simp [hp])
  | some (red, true) =>
    have hc : ps.clamped i v = min (max i.row.least (min i.row.greatest v)) (ps.get red) := by
      simp [Params.clamped, hp]
    obtain ⟨-, h0, -⟩ := ParamId.partner_row hp
    refine h.put i _ ⟨by omega, by omega⟩ (fun r hr => ?_) (by simp [hp])
    cases hp.symm.trans hr
    omega
  | some (amber, false) =>
    have hc : ps.clamped i v = max (max i.row.least (min i.row.greatest v)) (ps.get amber) := by
      simp [Params.clamped, hp]
    obtain ⟨-, -, hg⟩ := ParamId.partner_row hp
    have := (h.range amber).2
    refine h.put i _ ⟨by omega, by omega⟩ (by simp [hp]) (fun r hr => ?_)
    cases hp.symm.trans hr
    omega

theorem ParamId.mode_row {i : ParamId} (h : i.row.mode = true) : i.row.least = 0 ∧ i.row.greatest = 1 ∧ i.partner = none := by
  revert h
  cases i <;> decide

theorem LawsKept.ofParams (s : State) (ps : Params) (h : ParamsOk s.params → ParamsOk ps) :
    LawsKept s { s with params := ps } :=
  RecordsKept.laws ⟨id, id, id, fun c => by cases c <;> exact id, id, h, id, id, id, fun h g => ⟨h, g⟩⟩ rfl rfl

theorem LawsKept.setParam (i : ParamId) (v : Nat) (s : State) : LawsKept s (setParam i v s).state := by
  unfold Machine.setParam
  dsimp only
  split
  next hm =>
    obtain ⟨hl, -, hp⟩ := ParamId.mode_row hm
    split
    next hv => exact LawsKept.ofParams s _ fun h => h.put i v ⟨by omega, hv⟩ (by simp [hp]) (by simp [hp])
    next => exact LawsKept.refl s
  next => exact LawsKept.ofParams s _ fun h => h.put_clamped i v

theorem LawsKept.zoneSet (b : List Byte) (s : State) : LawsKept s (zoneSetOwner b s).state := by
  unfold zoneSetOwner
  split
  next z _ =>
    split
    next hi =>
      split
      next hz =>
        refine RecordsKept.laws ⟨id, id, id, fun c => by cases c <;> exact id, id, id, fun h i => ?_, id, id,
          fun h g => ⟨h, g⟩⟩ rfl rfl
        rw [vget_vset]
        split
        · exact hz
        · exact h i
      next => exact LawsKept.refl s
    next => exact LawsKept.refl s
  next => exact LawsKept.refl s

/-! ## Hubs -/

theorem HubsOk.setHub {hs : Vector HubEntry 16} (h : HubsOk hs) (g : Fin 16) (e : HubEntry)
    (inside : e.valid = true → e.port < 4 ∧ e.base + e.count ≤ 256)
    (apart : e.valid = true → ∀ k, k ≠ g → (vget hs k).valid = true → (vget hs k).shares e.base e.count = false) :
    HubsOk (vset hs g e) := by
  refine ⟨fun k hk => ?_, fun k l hkl hk hl => ?_⟩
  · rw [vget_vset] at hk ⊢
    split at hk
    next hg => rw [if_pos hg]; exact inside hk
    next hg => rw [if_neg hg]; exact h.inside k hk
  · rw [vget_vset] at hk hl ⊢
    rw [vget_vset]
    split at hk
    next hg =>
      subst hg
      rw [if_neg hkl] at hl ⊢
      have hs := apart hk l (Ne.symm hkl) hl
      rw [if_pos rfl]
      unfold HubEntry.shares at hs ⊢
      simp only [decide_eq_false_iff_not] at hs ⊢
      omega
    next hg =>
      rw [if_neg hg]
      split at hl
      next hg' => rw [if_pos hg']; exact apart hl k (Ne.symm hg) hk
      next hg' => rw [if_neg hg']; exact h.apart k l hkl hk hl

theorem HubEntry.shares_iff {e : HubEntry} {base count : Nat} :
    e.shares base count = true ↔ base < e.base + e.count ∧ e.base < base + count := decide_eq_true_iff

theorem State.runTaken_eq_true_iff {s : State} {g : Fin 16} {base count : Nat} :
    s.runTaken g base count = true ↔
      ∃ k, k ≠ g ∧ (s.hub k).valid = true ∧ (s.hub k).shares base count = true := by
  simp [State.runTaken, enumFin_eq_map, State.hub, and_assoc]

theorem hubRangeOk_iff {port base count : Nat} : hubRangeOk port base count = true ↔
    port < 4 ∧ base ≤ 255 ∧ 1 ≤ count ∧ count ≤ 64 ∧ base + count ≤ 256 := decide_eq_true_iff

theorem Keeps.hubMapSet (b : List Byte) (s : State) : Keeps s (hubMapSetOwner b s).state := by
  unfold hubMapSetOwner
  dsimp only
  split
  next g _ =>
    split
    next => exact Keeps.refl s
    next hr =>
      split
      next => exact Keeps.refl s
      next ht =>
        split
        next => exact Keeps.refl s
        next =>
          obtain ⟨hp, -, -, -, hin⟩ := hubRangeOk_iff.1 (by simpa using hr)
          refine Keeps.ofHubs s _ fun h => h.setHub g _ (fun _ => ⟨hp, hin⟩) fun _ k hk hv => ?_
          by_contra hs
          exact ht (State.runTaken_eq_true_iff.2 ⟨k, hk, hv, Bool.eq_true_of_not_eq_false hs⟩)
  next => exact Keeps.refl s

theorem Keeps.hubMapClear (b : List Byte) (s : State) : Keeps s (hubMapClearOwner b s).state := by
  unfold hubMapClearOwner
  split
  next g _ =>
    split
    next => exact Keeps.refl s
    next =>
      split
      next => exact Keeps.refl s
      next => exact Keeps.ofHubs s _ fun h => h.setHub g _ (fun hv => by cases hv) (fun hv => by cases hv)
  next => exact Keeps.refl s

theorem Keeps.forgetHubs (s : State) (test : HubEntry → Bool) : Keeps s (s.forgetHubs test) := by
  refine Keeps.ofHubs s _ fun h => ?_
  have same : ∀ k, (vget (vmap (fun e => if test e = true then e.forget else e) s.hubs) k).valid = (vget s.hubs k).valid ∧
      (vget (vmap (fun e => if test e = true then e.forget else e) s.hubs) k).port = (vget s.hubs k).port ∧
      (vget (vmap (fun e => if test e = true then e.forget else e) s.hubs) k).base = (vget s.hubs k).base ∧
      (vget (vmap (fun e => if test e = true then e.forget else e) s.hubs) k).count = (vget s.hubs k).count := fun k => by
    rw [vget_vmap]
    split <;> exact ⟨rfl, rfl, rfl, rfl⟩
  refine ⟨fun k hk => ?_, fun k l hkl hk hl => ?_⟩
  · obtain ⟨kv, kp, kb, kc⟩ := same k
    rw [kp, kb, kc]
    exact h.inside k (kv ▸ hk)
  · obtain ⟨kv, -, kb, kc⟩ := same k
    obtain ⟨lv, -, lb, lc⟩ := same l
    have := h.apart k l hkl (kv ▸ hk) (lv ▸ hl)
    unfold HubEntry.shares at this ⊢
    rw [kb, kc, lb, lc]
    exact this

/-! ## Banks -/

theorem LawsKept.gridSet (b : List Byte) (s : State) : LawsKept s (gridSetOwner b s).state := by
  unfold gridSetOwner
  split
  next => exact LawsKept.refl s
  next ha =>
    split
    next => exact LawsKept.refl s
    next =>
      split
      next =>
        exact RecordsKept.laws ⟨id, id, id, fun c => by cases c <;> exact id, id, id, id, id, id,
          fun _ _ => ⟨⟨fun _ => ⟨rfl, rfl⟩, fun h => (nomatch h), rfl, rfl⟩, fun h => absurd h ha⟩⟩ rfl rfl
      next => exact LawsKept.refl s

theorem Keeps.bankWrite (b : List Byte) (s : State) : Keeps s (bankWriteOwner b s).state := by
  unfold bankWriteOwner
  dsimp only
  split
  · exact Keeps.refl s
  · split
    · exact Keeps.refl s
    · exact Keeps.ofBanks s _ (fun h => ⟨h.absent, h.present, h.active, Store.wf_writeRun _ _ _ h.standby⟩) rfl id

theorem Keeps.bankClear (b : List Byte) (s : State) : Keeps s (bankClearOwner b s).state := by
  unfold bankClearOwner
  split
  · exact Keeps.refl s
  · split
    · exact Keeps.refl s
    · exact Keeps.ofBanks s _ (fun h => ⟨h.absent, h.present, h.active, rfl⟩) rfl id

theorem Keeps.bankActivate (b : List Byte) (s : State) : Keeps s (bankActivateOwner b s).state := by
  unfold bankActivateOwner
  split
  · exact Keeps.refl s
  · split
    · exact Keeps.refl s
    · exact Keeps.ofBanks s _ (fun h => ⟨h.absent, h.present, h.active, h.standby⟩) rfl id

theorem Keeps.bankAbort (b : List Byte) (s : State) : Keeps s (bankAbortOwner b s).state := by
  unfold bankAbortOwner
  split
  · exact Keeps.endActivation s _
  · split <;> exact Keeps.refl s

theorem Keeps.bankRead (b : List Byte) (s : State) : Keeps s (bankReadOwner b s).state := by
  unfold bankReadOwner
  dsimp only
  split
  · exact Keeps.refl s
  · split <;> exact Keeps.refl s

/-! ## Channels -/

theorem Keeps.channelConfig (b : List Byte) (s : State) : Keeps s (channelConfigOwner b s).state := by
  unfold channelConfigOwner
  split
  · dsimp only
    split <;> exact Keeps.setChan s _ _ fun h => h.of_record h.record rfl
  · exact Keeps.refl s

theorem Keeps.channelEnable (b : List Byte) (s : State) : Keeps s (channelEnableOwner b s).state := by
  unfold channelEnableOwner
  split
  next j _ =>
    split
    next =>
      exact Keeps.notified s j (f := fun s => s.moveChan j .await Channel.discard) (Keeps.discardTo s j .await rfl)
    next => exact Keeps.refl s
  next => exact Keeps.refl s

theorem Keeps.channelDisable (b : List Byte) (s : State) : Keeps s (channelDisableOwner b s).state := by
  unfold channelDisableOwner
  split
  next j _ =>
    split
    next => exact Keeps.refl s
    next => exact Keeps.notified s j (f := fun s => s.moveChan j .off Channel.discard) (Keeps.discardTo s j .off rfl)
  next => exact Keeps.refl s

theorem Keeps.channelAlarmClear (b : List Byte) (s : State) : Keeps s (channelAlarmClearOwner b s).state := by
  unfold channelAlarmClearOwner
  split
  · split
    · exact Keeps.refl s
    · exact Keeps.setChan s _ _ fun h => h.of_record h.record rfl
  · exact Keeps.refl s

/-! ## Ports, masks, records -/

theorem Keeps.portEnable (b : List Byte) (s : State) : Keeps s (portEnableOwner b s).state := by
  unfold portEnableOwner
  split
  · split
    · exact Keeps.refl s
    · exact ((Keeps.setPort s _ _).trans (Keeps.withdraw _ _)).trans (Keeps.forgetHubs _ _)
  · exact Keeps.refl s

theorem Keeps.portDisable (b : List Byte) (s : State) : Keeps s (portDisableOwner b s).state := by
  unfold portDisableOwner
  split
  · split
    · exact Keeps.refl s
    · exact Keeps.stopPort s _ _
  · exact Keeps.refl s

theorem Keeps.errorConfig (b : List Byte) (s : State) : Keeps s (errorConfigOwner b s).state := by
  unfold errorConfigOwner
  split
  · exact Keeps.setPort s _ _
  · exact Keeps.refl s

theorem Keeps.errorClear (b : List Byte) (s : State) : Keeps s (errorClearOwner b s).state := by
  unfold errorClearOwner
  split
  · exact Keeps.setPort s _ _
  · exact Keeps.refl s

theorem CtlOk.maskKinds {c : CPort} {x : CtlPort} (h : CtlOk c x) (ks : List NoticeKind) : CtlOk c (x.maskKinds ks) := by
  refine ⟨h.queue, h.refusals, h.once.filter _, fun k hk => ?_, fun k hk => h.received k (List.mem_filter.1 hk).1, h.resets⟩
  obtain ⟨hp, hks⟩ := List.mem_filter.1 hk
  intro hm
  have := (List.mem_filter.1 hm).2
  simp only [Bool.or_eq_true, List.contains_iff_mem] at this
  exact this.elim (h.unmasked k hp) (by simpa using hks)

theorem CtlOk.unmaskKinds {c : CPort} {x : CtlPort} (h : CtlOk c x) (ks : List NoticeKind) :
    CtlOk c (x.unmaskKinds ks) :=
  ⟨h.queue, h.refusals, h.once, fun k hk hm => h.unmasked k hk (List.mem_filter.1 hm).1, h.received, h.resets⟩

theorem Keeps.noticeMaskSet (c : CPort) (b : List Byte) (s : State) : Keeps s (noticeMaskSetOwner c b s).state := by
  unfold noticeMaskSetOwner
  split
  · dsimp only
    split
    · exact Keeps.refl s
    · exact Keeps.setCtl s c _ fun h => h.maskKinds _
  · exact Keeps.refl s

theorem Keeps.noticeMaskClear (c : CPort) (b : List Byte) (s : State) : Keeps s (noticeMaskClearOwner c b s).state := by
  unfold noticeMaskClearOwner
  split
  · dsimp only
    split
    · exact Keeps.refl s
    · exact Keeps.setCtl s c _ fun h => h.unmaskKinds _
  · exact Keeps.refl s

/-- Records acknowledged leave the queue with its law. -/
theorem LawsKept.eventAck (b : List Byte) (s : State) : LawsKept s (eventAckOwner b s).state :=
  RecordsKept.laws ⟨id, id, fun h => h.sub List.filter_sublist, fun c => by cases c <;> exact id, id, id, id, id, id,
    fun h g => ⟨h, g⟩⟩ rfl rfl

theorem Alert.ack_injection {a x : Alert} {d : Nat} {c : CPort} {n : Nat} {st : Status}
    (h : a.ack d c n = (st, some x)) : x.injection = a.injection := by
  unfold Alert.ack at h
  repeat' split at h
  all_goals cases h <;> rfl

theorem Keeps.alertAck (c : CPort) (b : List Byte) (s : State) : Keeps s (alertAckOwner c b s).state := by
  unfold alertAckOwner
  split
  next st a ha => exact Keeps.changeAlert s a (Alert.ack_injection ha)
  next => exact Keeps.refl s

theorem LawsKept.injectionSet (b : List Byte) (s : State) : LawsKept s (injectionSetOwner b s).state := by
  unfold injectionSetOwner
  split
  next i _ =>
    split
    next => exact LawsKept.refl s
    next =>
      refine LawsKept.trans_keeps (t := { s with alert := { s.alert with injection := i } }) ?_
        (Keeps.raise { s with alert := { s.alert with injection := i } } .survey .injection rfl)
      exact RecordsKept.laws ⟨id, id, id, fun c => by cases c <;> exact id, id, id, id, id, id, fun h g => ⟨h, g⟩⟩ rfl rfl
  next => exact LawsKept.refl s

theorem JournalOk.cleared {j : Journal} (h : JournalOk j) : JournalOk j.cleared :=
  ⟨Nat.zero_le _, List.Pairwise.nil, by simp [Journal.cleared, Journal.powerOn], h.counter, h.last⟩

theorem Keeps.journalRelease (b : List Byte) (s : State) : Keeps s (journalReleaseOwner b s).state := by
  unfold journalReleaseOwner
  split
  · exact (Keeps.ofJournal s { s.journal with held := false, cause := none } fun h => h.congr rfl rfl rfl).trans
      (Keeps.offer _ .resumed)
  · exact Keeps.refl s

/-! ## Run control -/

theorem LawsKept.arrayStart (b : List Byte) (s : State) : LawsKept s (arrayStartOwner b s).state := by
  unfold arrayStartOwner
  split
  next => exact LawsKept.refl s
  next hg =>
    simp only [not_or, Bool.not_eq_false] at hg
    obtain ⟨ha, hb⟩ := hg
    have hk := Keeps.forgetHubs s fun _ => true
    refine LawsKept.trans_keeps (t := { s.forgetHubs (fun _ => true) with array := .running }) ?_ (Keeps.offer _ _)
    refine (hk.records.trans (RecordsKept.ofArray _ .running fun _ => hb)).laws_of_leaves_running (fun h => ?_) (.inl ha)
    exact ⟨h.front, h.timer, h.flight, h.named, fun hn => absurd rfl hn⟩

theorem ChanOk.stopped {c : Channel} (h : ChanOk c) : ChanOk c.stopped := by
  unfold Channel.stopped
  split
  · exact ⟨h.record, h.ring⟩
  · exact ⟨rfl, rfl⟩

theorem Keeps.stopChannels (s : State) : Keeps s s.stopChannels := by
  have h := Keeps.ofChannels s (vmap Channel.stopped s.channels) fun j hj => by rw [vget_vmap]; exact hj.stopped
  exact Keeps.ite (h.trans (Keeps.raise _ _ _ rfl)) h

theorem RecordsKept.ofSched (s : State) (x : Sched) : RecordsKept s { s with sched := x } :=
  ⟨id, id, id, fun c => by cases c <;> exact id, id, id, id, id, id, fun h g => ⟨h, g⟩⟩

theorem RecordsKept.stopStacking (s : State) : RecordsKept s s.stopStacking :=
  (RecordsKept.ofSched s { s.sched with window := none, timer := none, slips := [] }).trans
    (Keeps.ofPorts _ (vmap FieldPort.dropSlipWait s.ports)).records

/-- The stop ends with the scheduler UNSET and the array STOPPED, so it has no front to keep. -/
theorem LawsKept.stopArray (s : State) : LawsKept s s.stopArray := by
  unfold State.stopArray
  dsimp only
  generalize hs2 : s.stopStacking.truncateTrigger (s.sched.front.getD 0) = s2
  have h2 : RecordsKept s s2 := hs2 ▸ (RecordsKept.stopStacking s).trans (Keeps.truncateTrigger _ _).records
  generalize hs5 : ({ s2.stopChannels.forgetHubs (fun _ => true) with sched := Sched.powerOn } : State) = s5
  have h5 : RecordsKept s s5 := hs5 ▸
    (h2.trans ((Keeps.stopChannels s2).trans (Keeps.forgetHubs _ _)).records).trans (RecordsKept.ofSched _ _)
  have hu : (s5.offer (.run true)).sched = Sched.powerOn := by rw [State.offer_sched, ← hs5]
  refine LawsKept.trans_keeps (t := { s5.offer (.run true) with array := .stopped }) ?_ (Keeps.considerSwap _)
  exact ((h5.trans (Keeps.offer _ _).records).trans (RecordsKept.ofArray _ .stopped fun h => by cases h)).laws_of_leaves_running
    (fun _ => SchedOk.ofPowerOn hu) (.inr (by simp))

theorem Keeps.promoteAll (s : State) : Keeps s s.promoteAll := Keeps.foldl s _ Keeps.promote

theorem LawsKept.arrayStop (b : List Byte) (s : State) : LawsKept s (arrayStopOwner b s).state := by
  have h := (LawsKept.stopArray s).trans_keeps (Keeps.promoteAll s.stopArray)
  unfold arrayStopOwner
  split
  · simpa only using h
  · exact LawsKept.refl s

/-! ## Every command -/

theorem LawsKept.paramSet (b : List Byte) (s : State) : LawsKept s (paramSetOwner b s).state := by
  unfold paramSetOwner
  split
  · exact LawsKept.setParam _ _ s
  · exact LawsKept.refl s

/-- An owner that only reads. -/
theorem LawsKept.ofRead {s : State} {r : Response} (h : r.state = s) : LawsKept s r.state := h ▸ LawsKept.refl s

theorem paramGetOwner_state (b : List Byte) (s : State) : (paramGetOwner b s).state = s := by
  unfold paramGetOwner
  split <;> rfl

theorem channelQueryOwner_state (b : List Byte) (s : State) : (channelQueryOwner b s).state = s := by
  unfold channelQueryOwner
  split <;> rfl

theorem hubMapGetOwner_state (b : List Byte) (s : State) : (hubMapGetOwner b s).state = s := by
  unfold hubMapGetOwner
  split <;> rfl

theorem errorReportOwner_state (b : List Byte) (s : State) : (errorReportOwner b s).state = s := by
  unfold errorReportOwner
  split <;> rfl

theorem eventFetchOwner_state (b : List Byte) (s : State) : (eventFetchOwner b s).state = s := by
  unfold eventFetchOwner
  split <;> rfl

theorem zoneGetOwner_state (b : List Byte) (s : State) : (zoneGetOwner b s).state = s := by
  unfold zoneGetOwner
  dsimp only
  split <;> rfl

/-- Whatever an owner answers, the laws are kept. -/
theorem LawsKept.owner (req : Req) (c : CPort) (b : List Byte) (s : State) : LawsKept s (ownerOf c req b s).state := by
  cases req with
  | identify | status | gridGet | alertStatus => exact LawsKept.refl s
  | paramGet => exact .ofRead (paramGetOwner_state b s)
  | channelQuery => exact .ofRead (channelQueryOwner_state b s)
  | hubMapGet => exact .ofRead (hubMapGetOwner_state b s)
  | errorReport => exact .ofRead (errorReportOwner_state b s)
  | zoneGet => exact .ofRead (zoneGetOwner_state b s)
  | eventFetch => exact .ofRead (eventFetchOwner_state b s)
  | paramSet => exact LawsKept.paramSet b s
  | noticeMaskSet => exact (Keeps.noticeMaskSet c b s).laws
  | noticeMaskClear => exact (Keeps.noticeMaskClear c b s).laws
  | arrayStart => exact LawsKept.arrayStart b s
  | arrayStop => exact LawsKept.arrayStop b s
  | channelConfig => exact (Keeps.channelConfig b s).laws
  | channelEnable => exact (Keeps.channelEnable b s).laws
  | channelDisable => exact (Keeps.channelDisable b s).laws
  | channelAlarmClear => exact (Keeps.channelAlarmClear b s).laws
  | portEnable => exact (Keeps.portEnable b s).laws
  | portDisable => exact (Keeps.portDisable b s).laws
  | hubMapSet => exact (Keeps.hubMapSet b s).laws
  | hubMapClear => exact (Keeps.hubMapClear b s).laws
  | errorConfig => exact (Keeps.errorConfig b s).laws
  | errorClear => exact (Keeps.errorClear b s).laws
  | gridSet => exact LawsKept.gridSet b s
  | bankWrite => exact (Keeps.bankWrite b s).laws
  | bankRead => exact (Keeps.bankRead b s).laws
  | bankClear => exact (Keeps.bankClear b s).laws
  | bankActivate => exact (Keeps.bankActivate b s).laws
  | bankAbort => exact (Keeps.bankAbort b s).laws
  | zoneSet => exact LawsKept.zoneSet b s
  | eventAck => exact LawsKept.eventAck b s
  | alertAck => exact (Keeps.alertAck c b s).laws
  | injectionSet => exact LawsKept.injectionSet b s
  | journalRead => exact (Keeps.flushQuiet s).laws
  | journalRelease => exact (Keeps.journalRelease b s).laws
  | journalClear => exact (Keeps.ofJournal s _ fun h => h.cleared).laws

theorem LawsKept.checked (req : Req) (c : CPort) (b : List Byte) (s : State) :
    LawsKept s (checked c req b (ownerOf c req) s).state := by
  unfold Machine.checked
  split
  · exact LawsKept.refl s
  · split
    · exact LawsKept.refl s
    · split
      · exact LawsKept.refl s
      · exact LawsKept.owner req c b s

theorem LawsKept.takeRequest (req : Req) (c : CPort) (s : State) : LawsKept s (takeRequest c req (ownerOf c req) s) := by
  unfold Machine.takeRequest
  split
  · split
    · exact ((Keeps.popRequest s c).trans_laws (LawsKept.checked req c _ _)).trans_keeps (Keeps.putReply _ _ _)
    · exact LawsKept.refl s
  · exact LawsKept.refl s

/-- The state a command answers keeps every law. -/
def AnswersLawfully (i : Instr) (s : State) : Prop := ∃ t, exec i s = .next t ∧ LawsKept s t

theorem AnswersLawfully.request (req : Req) (c : CPort) (s : State) : AnswersLawfully (req.instr c) s :=
  ⟨_, exec_instr req c s, (LawsKept.takeRequest req c s).whole⟩

/-- A command that is one step `f` of the part. -/
theorem AnswersLawfully.ofStep {i : Instr} {f : State → State} {s : State} (hi : exec i s = answer f s)
    (h : LawsKept s (f s)) : AnswersLawfully i s := ⟨_, hi, h.whole⟩

/-- Every command answers, and what it answers keeps every law. -/
theorem answersLawfully (i : Instr) (s : State) : AnswersLawfully i s := by
  cases i with
  | resetAsserted => exact ⟨_, rfl, LawsKept.inReset s⟩
  | resetReleased => exact ⟨_, rfl, LawsKept.ite (LawsKept.poweredOn s) (LawsKept.refl s)⟩
  | initializationComplete => exact .ofStep rfl (LawsKept.initializationEnds s)
  | frameStart p => exact .ofStep rfl (Keeps.lineBytes p _ s).laws
  | fieldLengthRefused p len => exact .ofStep rfl (Keeps.lineBytes p _ s).laws
  | fieldFrameComplete p bytes => exact .ofStep rfl (Keeps.lineBytes p bytes s).laws
  | linkDown p => exact .ofStep rfl (Keeps.linkTimesOut p s).laws
  | holdOffExpiry => exact .ofStep rfl (Keeps.holdOffRunsOut s).laws
  | stackCompletion => exact .ofStep rfl (Keeps.stackCompletes s).laws
  | validationPassed => exact .ofStep rfl (Keeps.validationPasses s).laws
  | validationFailed => exact .ofStep rfl (Keeps.validationFails s).laws
  | dwellExpiry => exact .ofStep rfl (Keeps.dwellRunsOut s).laws
  | controlFrameReceived c bytes => exact .ofStep rfl (Keeps.controlBytes c bytes s).laws
  | controlLengthRefused c len => exact .ofStep rfl (Keeps.controlBytes c _ s).laws
  | controlFrameStart c => exact .ofStep rfl (Keeps.controlBytes c _ s).laws
  | transmissionEnd c => exact .ofStep rfl (Keeps.transmissionEnds c s).laws
  | portReset c => exact .ofStep rfl (Keeps.portResets c s).laws
  | breakEnd c => exact .ofStep rfl (Keeps.breakEnds c s).laws
  | unknownRequest c => exact .ofStep rfl (Keeps.takeUnknown c s).laws
  | identify c => exact .request .identify c s
  | status c => exact .request .status c s
  | paramGet c => exact .request .paramGet c s
  | paramSet c => exact .request .paramSet c s
  | noticeMaskSet c => exact .request .noticeMaskSet c s
  | noticeMaskClear c => exact .request .noticeMaskClear c s
  | arrayStart c => exact .request .arrayStart c s
  | arrayStop c => exact .request .arrayStop c s
  | channelConfig c => exact .request .channelConfig c s
  | channelEnable c => exact .request .channelEnable c s
  | channelDisable c => exact .request .channelDisable c s
  | channelQuery c => exact .request .channelQuery c s
  | channelAlarmClear c => exact .request .channelAlarmClear c s
  | portEnable c => exact .request .portEnable c s
  | portDisable c => exact .request .portDisable c s
  | hubMapSet c => exact .request .hubMapSet c s
  | hubMapClear c => exact .request .hubMapClear c s
  | hubMapGet c => exact .request .hubMapGet c s
  | errorReport c => exact .request .errorReport c s
  | errorConfig c => exact .request .errorConfig c s
  | errorClear c => exact .request .errorClear c s
  | gridSet c => exact .request .gridSet c s
  | gridGet c => exact .request .gridGet c s
  | bankWrite c => exact .request .bankWrite c s
  | bankRead c => exact .request .bankRead c s
  | bankClear c => exact .request .bankClear c s
  | bankActivate c => exact .request .bankActivate c s
  | bankAbort c => exact .request .bankAbort c s
  | zoneSet c => exact .request .zoneSet c s
  | zoneGet c => exact .request .zoneGet c s
  | eventFetch c => exact .request .eventFetch c s
  | eventAck c => exact .request .eventAck c s
  | alertStatus c => exact .request .alertStatus c s
  | alertAck c => exact .request .alertAck c s
  | injectionSet c => exact .request .injectionSet c s
  | journalRead c => exact .request .journalRead c s
  | journalRelease c => exact .request .journalRelease c s
  | journalClear c => exact .request .journalClear c s

/-- A step keeps every law: that of a command at the front of the queue, or of a millisecond. -/
theorem step_keeps_laws {s t : State} (h : step s = .next t) : LawsKept s t := by
  unfold step at h
  split at h
  next i rest _ =>
    obtain ⟨u, hu, hl⟩ := answersLawfully i { s with pending := rest }
    cases hu.symm.trans h
    exact (LawsKept.ofInput s s.resetAsserted rest).trans_of_array rfl hl
  next =>
    cases h
    exact (Keeps.millisecond s).laws.whole

/-! ## The obligations -/

/-- Settles O53: every step keeps the law of the lines. -/
theorem linesFollowTheLevel : Obligations.LinesFollowTheLevel := fun _ _ hl h => (step_keeps_laws h).lines hl

/-- Settles O54: every step keeps the laws of the event queue and of the journal. -/
theorem eventsAndJournalKeepTheirLaws : Obligations.EventsAndJournalKeepTheirLaws :=
  ⟨fun _ _ hq h => (step_keeps_laws h).queue hq, fun _ _ hj h => (step_keeps_laws h).journal hj⟩

/-- Settles O55: every step keeps the law of each control port. -/
theorem controlPortsKeepTheirLaw : Obligations.ControlPortsKeepTheirLaw :=
  fun _ _ hc h c => (step_keeps_laws h).ctl c (hc c)

/-- Settles O56: every step keeps the law of the channels. -/
theorem channelsKeepTheirLaw : Obligations.ChannelsKeepTheirLaw := fun _ _ hc h => (step_keeps_laws h).channels hc

/-- Settles O57: every step keeps the parameters and the zone rules in range and the hubs' runs apart. -/
theorem tablesStayInRange : Obligations.TablesStayInRange :=
  ⟨fun _ _ hp hz h => ⟨(step_keeps_laws h).params hp, (step_keeps_laws h).zones hz⟩,
    fun _ _ hh h => (step_keeps_laws h).hubs hh⟩

/-- Settles O58: every step keeps the trigger record's law and, together, those of the banks. -/
theorem triggerAndBankKeepTheirLaws : Obligations.TriggerAndBankKeepTheirLaws :=
  ⟨fun _ _ ht h => (step_keeps_laws h).trigger ht, fun _ _ hb hr h => (step_keeps_laws h).banks hb hr⟩

/-- Settles O59: every step keeps the scheduler's shape, and the front while the array stays RUNNING. -/
theorem frontNeverGoesBack : Obligations.FrontNeverGoesBack :=
  fun _ _ hs h => ⟨(step_keeps_laws h).sched hs, fun hr hu => (step_keeps_laws h).front hs hr hu⟩

/-- Settles O3: no command stops the part. -/
theorem everyCommandAnswersANextState : Obligations.EveryCommandAnswersANextState := fun i s =>
  have ⟨t, ht, _⟩ := answersLawfully i s
  ⟨t, ht⟩

/-- Settles O1: the queue's first command is what a step reads. -/
theorem stepRunsFrontCommand : Obligations.StepRunsFrontCommand := fun _ _ _ => rfl

end Sys2Proof.Machine
end

section
/-!
PROOFS. The taking of a request (10): the answers in the form the statements give them, the checks ahead of the owner, the
identity, the summary and the parameters.
-/

namespace Sys2Proof.Machine

section
variable {s : State} {c : CPort} {req : Req} {tag : Byte} {payload : List Byte}

/-- Out of RESET a command that is one step `f` of the part answers it, followed by the transmit choices. -/
theorem exec_out {i : Instr} {f : State → State} (hi : exec i s = answer f s) (hr : s.resetAsserted = false) :
    exec i s = .next (f s).transmitBoth := by
  rw [hi, answer, whole_out hr]

theorem exec_asks_of_checked (h : Asks s c req tag payload) {st : Status} {out : List Byte} {t : State}
    (hr : checked c req payload (ownerOf c req) (s.popRequest c) = ⟨st, out, t⟩) :
    exec (req.instr c) s = .next (t.replied c req tag st out) := by
  rw [exec_asks h, hr]

theorem exec_served_of_owner (h : Served s c req tag payload) {st : Status} {out : List Byte} {t : State}
    (hr : ownerOf c req payload (s.popRequest c) = ⟨st, out, t⟩) :
    exec (req.instr c) s = .next (t.replied c req tag st out) := exec_served h hr

theorem exec_served_of_refuse (h : Served s c req tag payload) {st : Status}
    (hr : ownerOf c req payload (s.popRequest c) = refuse st (s.popRequest c)) :
    exec (req.instr c) s = .next ((s.popRequest c).replied c req tag st []) := exec_served h hr

/-- A request that every port may use in every array state is served when its length is right. -/
theorem Asks.served (h : Asks s c req tag payload) (ha : req.allowed c = true) (hd : req.duringInit = true)
    (hl : req.lengthOk payload = true) : Served s c req tag payload := ⟨h, ha, hl, fun _ => hd⟩

end

/-! ## The checks ahead of the owner (R182, R183, R195, R199) -/

theorem Req.mem_all (r : Req) : r ∈ Req.all := by
  cases r <;> decide

theorem Req.ofCode_eq_none_iff (b : Byte) : Req.ofCode b = none ↔ ∀ r : Req, r.code ≠ b := by
  simp [Req.ofCode, Req.mem_all]

theorem Req.duringInit_eq_false {r : Req} (h1 : r ≠ .identify) (h2 : r ≠ .status) (h3 : r ≠ .noticeMaskSet)
    (h4 : r ≠ .noticeMaskClear) : r.duringInit = false := by
  simp [Req.duringInit, h1, h2, h3, h4]

/-- Settles O9: each check that fails answers before the owner; the table of codes and lengths is read off. -/
theorem checksAheadOfTheOwner : Obligations.ChecksAheadOfTheOwner := by
  refine ⟨?permission, ?form, ?notReady, ?unknown, ?ports, ?lengths, ⟨rfl, ?bankWrite⟩, Req.ofCode_eq_none_iff⟩
  case permission =>
    intro s c req tag payload h ha
    exact exec_asks_of_checked h (by simp [checked, ha, refuse])
  case form =>
    intro s c req tag payload h ha hl
    exact exec_asks_of_checked h (by simp [checked, ha, hl, refuse])
  case notReady =>
    intro s c req tag payload h ha hl hi h1 h2 h3 h4
    exact exec_asks_of_checked h (by simp [checked, ha, hl, hi, Req.duringInit_eq_false h1 h2 h3 h4, refuse])
  case unknown =>
    intro s c r hr ht hc
    rw [exec_out (f := takeUnknown c) rfl hr]
    simp [takeUnknown, ht, hc]
  case ports => exact fun r => by cases r <;> exact ⟨rfl, rfl⟩
  case lengths => simp [Req.code, Req.lengthOk]
  case bankWrite => simp [Req.lengthOk]

/-- Settles O10: a request command whose request is not the port's oldest leaves the state as it is. -/
theorem aCommandWithoutItsRequestChangesNothing : Obligations.ACommandWithoutItsRequestChangesNothing := by
  intro s c req hr hn
  rw [exec_out (exec_instr req c s) hr]
  unfold takeRequest
  split
  next r ht => rw [if_neg (hn r ht)]
  next => rfl

/-! ## Identity and status (R192, R193) -/

/-- Settles O11: the identity's bytes are those of the rule, on both ports and in every array state. -/
theorem identify : Obligations.Identify := by
  intro s c tag payload h
  constructor
  · rintro rfl
    exact exec_served_of_owner (h.served rfl rfl rfl) rfl
  · intro hp
    have hl : Req.identify.lengthOk payload = false := by simpa [Req.lengthOk] using hp
    exact exec_asks_of_checked h (by simp [checked, Req.allowed, hl, refuse])

theorem State.popRequest_resets (s : State) (c : CPort) :
    (s.popRequest c).survey.resets = s.survey.resets ∧ (s.popRequest c).plant.resets = s.plant.resets := by
  cases c <;> exact ⟨rfl, rfl⟩

/-- Settles O12: the owner of STATUS reads the state, from which the request's leaving takes nothing that it reports. -/
theorem statusSummary : Obligations.StatusSummary := by
  intro s c tag h
  refine exec_served_of_owner (h.served rfl rfl rfl) ?_
  obtain ⟨hs, hp⟩ := s.popRequest_resets c
  simp [ownerOf, statusOwner, State.statusBytes, BankCtl.statusBytes, State.journalStatusBytes, State.countIn, hs, hp]

/-! ## Parameters (R190, R191) -/

theorem ParamId.ofCode_eq_some {i : ParamId} {v : Nat} (h : i.row.code = v) : ParamId.ofCode v = some i := by
  subst h
  cases i <;> decide

theorem ParamId.ofCode_eq_none {v : Nat} (h : ∀ i : ParamId, i.row.code ≠ v) : ParamId.ofCode v = none := by
  simp [ParamId.ofCode, h]

/-- The least and greatest value, for the six default-zone thresholds. -/
theorem Params.clamped_eq (ps : Params) (i : ParamId) (v : Nat) : ps.clamped i v = match i with
    | .amberShut => min (min 3825 v) (ps.get .redShut)
    | .redShut => max (min 3825 v) (ps.get .amberShut)
    | .amberCirc => min (min 3825 v) (ps.get .redCirc)
    | .redCirc => max (min 3825 v) (ps.get .amberCirc)
    | .amberStim => min (min 3825 v) (ps.get .redStim)
    | .redStim => max (min 3825 v) (ps.get .amberStim)
    | _ => max i.row.least (min i.row.greatest v) := by
  cases i <;> simp [Params.clamped, ParamId.partner, ParamId.row]

theorem setParam_tuning {i : ParamId} (h : i.row.mode = false) (v : Nat) (s : State) :
    setParam i v s = ⟨if s.params.clamped i v = v then .ok else .clamped,
      bytesOf 1 i.row.code ++ bytesOf 4 (s.params.clamped i v), { s with params := s.params.put i (s.params.clamped i v) }⟩ := by
  simp [setParam, h]

theorem setParam_mode {i : ParamId} (h : i.row.mode = true) (v : Nat) (s : State) :
    setParam i v s = if v ≤ 1 then ⟨.ok, bytesOf 1 i.row.code ++ bytesOf 4 v, { s with params := s.params.put i v }⟩
      else ⟨.range, bytesOf 1 i.row.code ++ bytesOf 4 (s.param i), s⟩ := by
  simp [setParam, h, (ParamId.mode_row h).2.1]

theorem paramSetOwner_of_code {i : ParamId} {b : List Byte} (h : i.row.code = field b 0 1) (s : State) :
    paramSetOwner b s = setParam i (field b 1 4) s := by
  simp [paramSetOwner, ParamId.ofCode_eq_some h]

/-- Settles O13: an identifier names at most one parameter; a tuning parameter takes the clamped value, a mode one its
codes. -/
theorem paramRequests : Obligations.ParamRequests := by
  refine ⟨?get, ?tuning, ?mode, ?table⟩
  case get =>
    intro s c tag payload h
    constructor
    · intro i hi
      exact exec_served_of_owner h (by simp [ownerOf, paramGetOwner, ParamId.ofCode_eq_some hi])
    · intro hn
      exact exec_served_of_refuse h (by simp [ownerOf, paramGetOwner, ParamId.ofCode_eq_none hn])
  case tuning =>
    rintro s c tag payload i v w h hi rfl hm hw
    have hc : s.params.clamped i (field payload 1 4) = w := (Params.clamped_eq _ i _).trans (hw.trans rfl).symm
    refine exec_served_of_owner h ((paramSetOwner_of_code hi _).trans ?_)
    rw [setParam_tuning hm, State.popRequest_params, hc]
    rfl
  case mode =>
    intro s c tag payload h
    refine ⟨fun i hi hm => ?_, fun hn => ?_⟩
    · have ho := (paramSetOwner_of_code hi (s.popRequest c)).trans (setParam_mode hm _ _)
      constructor
      · intro hv
        refine exec_served_of_owner h (ho.trans ?_)
        rw [if_pos hv, State.popRequest_params]
        rfl
      · intro hv
        refine exec_served_of_owner h (ho.trans ?_)
        rw [if_neg (by omega), State.popRequest_param]
    · exact exec_served_of_owner h (by simp [ownerOf, paramSetOwner, ParamId.ofCode_eq_none hn, unknownParamBytes])
  case table => simp [ParamId.row]

end Sys2Proof.Machine
end

section
/-!
PROOFS. Framing (12.2; 03, R46): what a receiver makes of its bytes, one equation per state of the search; the link frame
read back; and the bytes of a control port's line (10, R180, R181).
-/

namespace Sys2Proof.Machine

/-! ## The receiver's search, one equation per state -/

theorem feed_receiving (max : Nat) (got bytes : List Byte) :
    feed max (.receiving got) bytes = feed max (.receiving []) (got ++ bytes) := rfl

theorem feed_hunting_half (max : Nat) (half : Bool) (bytes : List Byte) :
    feed max (.hunting half) bytes = feed max (.hunting false) (if half then 0xB6 :: bytes else bytes) := rfl

theorem feed_hunting_nil (max : Nat) : feed max (.hunting false) [] = ([], .hunting false) := rfl

theorem feed_hunting_one (max : Nat) (x : Byte) : feed max (.hunting false) [x] = ([], .hunting (x == 0xB6)) := rfl

theorem feed_hunting_sync (max : Nat) (rest : List Byte) :
    feed max (.hunting false) (0xB6 :: 0x49 :: rest) =
      (.start :: (feed max (.receiving []) rest).1, (feed max (.receiving []) rest).2) := by
  rw [← scan_receiving (n := 2 * (rest.length + 2) + 3) (by omega)]
  rfl

theorem feed_hunting_skip (max : Nat) {x y : Byte} (h : ¬(x = 0xB6 ∧ y = 0x49)) (rest : List Byte) :
    feed max (.hunting false) (x :: y :: rest) = feed max (.hunting false) (y :: rest) := by
  rw [← scan_hunting (n := 2 * (rest.length + 2) + 3) (by simp)]
  exact if_neg (by simpa using h)

section
variable {max : Nat} {buf : List Byte}

/-- The receiver at work in a frame: the length, the body and the CRC, and where the search goes on. -/
theorem feed_frame_eq (max : Nat) (buf : List Byte) :
    feed max (.receiving []) buf =
      if buf.length < 2 then ([], .receiving buf)
      else if field buf 0 2 = 0 ∨ max < field buf 0 2 then
        (.badLength (field buf 0 2) :: (feed max (.hunting false) (0x49 :: buf)).1,
          (feed max (.hunting false) (0x49 :: buf)).2)
      else if buf.length < field buf 0 2 + 4 then ([], .receiving buf)
      else if crc (buf.take (field buf 0 2 + 2)) = BitVec.ofNat 16 (field buf (field buf 0 2 + 2) 2) then
        (.good ((buf.drop 2).take (field buf 0 2)) :: (feed max (.hunting false) (buf.drop (field buf 0 2 + 4))).1,
          (feed max (.hunting false) (buf.drop (field buf 0 2 + 4))).2)
      else
        (.badCrc (field buf 0 2) ((buf.drop 2).take (field buf 0 2)) :: (feed max (.hunting false) (0x49 :: buf)).1,
          (feed max (.hunting false) (0x49 :: buf)).2) := by
  rw [← scan_hunting (n := 2 * buf.length + 3) (got := 0x49 :: buf) (by simp; omega),
    ← scan_hunting (n := 2 * buf.length + 3) (got := buf.drop (field buf 0 2 + 4)) (by simp; omega)]
  rfl

theorem feed_frame_badLength (h2 : 2 ≤ buf.length) (h : field buf 0 2 = 0 ∨ max < field buf 0 2) :
    feed max (.receiving []) buf =
      (.badLength (field buf 0 2) :: (feed max (.hunting false) (0x49 :: buf)).1,
        (feed max (.hunting false) (0x49 :: buf)).2) := by
  rw [feed_frame_eq, if_neg (by omega), if_pos h]

theorem feed_frame_good (h1 : 1 ≤ field buf 0 2) (hm : field buf 0 2 ≤ max) (hl : field buf 0 2 + 4 ≤ buf.length)
    (hc : crc (buf.take (field buf 0 2 + 2)) = BitVec.ofNat 16 (field buf (field buf 0 2 + 2) 2)) :
    feed max (.receiving []) buf =
      (.good ((buf.drop 2).take (field buf 0 2)) :: (feed max (.hunting false) (buf.drop (field buf 0 2 + 4))).1,
        (feed max (.hunting false) (buf.drop (field buf 0 2 + 4))).2) := by
  rw [feed_frame_eq, if_neg (by omega), if_neg (by omega), if_neg (by omega), if_pos hc]

theorem feed_frame_badCrc (h1 : 1 ≤ field buf 0 2) (hm : field buf 0 2 ≤ max) (hl : field buf 0 2 + 4 ≤ buf.length)
    (hc : crc (buf.take (field buf 0 2 + 2)) ≠ BitVec.ofNat 16 (field buf (field buf 0 2 + 2) 2)) :
    feed max (.receiving []) buf =
      (.badCrc (field buf 0 2) ((buf.drop 2).take (field buf 0 2)) :: (feed max (.hunting false) (0x49 :: buf)).1,
        (feed max (.hunting false) (0x49 :: buf)).2) := by
  rw [feed_frame_eq, if_neg (by omega), if_neg (by omega), if_neg (by omega), if_neg hc]

theorem feed_frame_waits (h : buf.length < 2 ∨ (1 ≤ field buf 0 2 ∧ field buf 0 2 ≤ max ∧ buf.length < field buf 0 2 + 4)) :
    feed max (.receiving []) buf = ([], .receiving buf) := by
  rw [feed_frame_eq]
  split
  next => rfl
  next h2 =>
    obtain ⟨h1, hm, hl⟩ := h.resolve_left h2
    rw [if_neg (by omega), if_pos hl]

end

/-! ## The search for a sync pair -/

/-- No sync pair begins at place `i`. -/
def NoSyncAt (buf : List Byte) (i : Nat) : Prop := ¬(buf[i]? = some 0xB6 ∧ buf[i + 1]? = some 0x49)

theorem feed_hunting_first_sync (max : Nat) (pre rest : List Byte)
    (h : ∀ i, i < pre.length → NoSyncAt (pre ++ 0xB6 :: 0x49 :: rest) i) :
    feed max (.hunting false) (pre ++ 0xB6 :: 0x49 :: rest) =
      (.start :: (feed max (.receiving []) rest).1, (feed max (.receiving []) rest).2) := by
  induction pre with
  | nil => exact feed_hunting_sync max rest
  | cons x pre ih =>
    have tail := ih fun i hi => h (i + 1) (Nat.succ_lt_succ hi)
    obtain ⟨y, l, hl⟩ : ∃ y l, pre ++ 0xB6 :: 0x49 :: rest = y :: l := by
      cases pre <;> exact ⟨_, _, rfl⟩
    have head := h 0 (Nat.succ_pos _)
    rw [List.cons_append, hl] at head ⊢
    rw [feed_hunting_skip max (by simpa [NoSyncAt] using head), ← hl, tail]

theorem feed_hunting_no_sync (max : Nat) (buf : List Byte) (h : ∀ i, NoSyncAt buf i) :
    feed max (.hunting false) buf = ([], .hunting (buf.getLast? == some 0xB6)) := by
  induction buf with
  | nil => rfl
  | cons x l ih =>
    cases l with
    | nil => exact feed_hunting_one max x
    | cons y r =>
      rw [feed_hunting_skip max (by simpa [NoSyncAt] using h 0), ih fun i => h (i + 1)]
      simp

/-! ## The link frame read back -/

theorem natOf_bytesOf_two {v : Nat} (h : v < 65536) : natOf (bytesOf 2 v) = v := by
  rw [natOf_bytesOf]
  omega

/-- What follows the sync pair of a link frame: length, body, CRC. -/
def frameTail (body : List Byte) : List Byte :=
  bytesOf 2 body.length ++ (body ++ bytesOf 2 (crc (bytesOf 2 body.length ++ body)).toNat)

theorem linkFrame_eq (body : List Byte) : linkFrame body = 0xB6 :: 0x49 :: frameTail body := by
  simp [linkFrame, frameTail]

theorem linkFrame_drop_two (body : List Byte) : (linkFrame body).drop 2 = frameTail body := by
  rw [linkFrame_eq]
  rfl

theorem frameTail_length (body : List Byte) : (frameTail body).length = body.length + 4 := by
  simp [frameTail]
  omega

theorem frameTail_field_length {body : List Byte} (h : body.length ≤ 65535) : field (frameTail body) 0 2 = body.length := by
  have hf := field_append [] (bytesOf 2 body.length) (body ++ bytesOf 2 (crc (bytesOf 2 body.length ++ body)).toNat)
  rw [natOf_bytesOf_two (by omega)] at hf
  simpa [frameTail] using hf

theorem frameTail_crc (body : List Byte) :
    crc ((frameTail body).take (body.length + 2)) = BitVec.ofNat 16 (field (frameTail body) (body.length + 2) 2) := by
  have hsplit : frameTail body =
      (bytesOf 2 body.length ++ body) ++ (bytesOf 2 (crc (bytesOf 2 body.length ++ body)).toNat ++ []) := by
    simp [frameTail]
  have hlen : (bytesOf 2 body.length ++ body).length = body.length + 2 := by simp; omega
  have hf := field_append (bytesOf 2 body.length ++ body) (bytesOf 2 (crc (bytesOf 2 body.length ++ body)).toNat) []
  rw [hlen, length_bytesOf, natOf_bytesOf_two (crc _).isLt] at hf
  rw [hsplit, hf, List.take_left' hlen]
  simp

/-- A receiver that has seen the sync pair takes the rest of a link frame as its body. -/
theorem feed_frameTail {max : Nat} {body : List Byte} (h1 : 1 ≤ body.length) (hm : body.length ≤ max)
    (h : body.length ≤ 65535) : feed max (.receiving []) (frameTail body) = ([.good body], .hunting false) := by
  have hf := frameTail_field_length h
  have hl := frameTail_length body
  have hd : (frameTail body).drop (body.length + 4) = [] := List.drop_eq_nil_of_le hl.le
  rw [feed_frame_good (by omega) (by omega) (by omega) (by rw [hf]; exact frameTail_crc body), hf,
    hd, feed_hunting_nil]
  simp [frameTail]

/-! ## Signed fields (R198) -/

theorem intOf_of_small {bs : List Byte} (h : natOf bs < 2 ^ (8 * bs.length - 1)) : intOf bs = natOf bs := if_pos h

theorem intOf_of_large {bs : List Byte} (h : ¬natOf bs < 2 ^ (8 * bs.length - 1)) :
    intOf bs = (natOf bs : Int) - 2 ^ (8 * bs.length) := if_neg h

theorem pow_256_eq (n : Nat) : (256 : Nat) ^ n = 2 ^ (8 * n) := by
  rw [Nat.pow_mul]

theorem pow_256_eq_two_mul {n : Nat} (h : 1 ≤ n) : (256 : Nat) ^ n = 2 * 2 ^ (8 * n - 1) := by
  rw [pow_256_eq, ← Nat.pow_succ']
  congr 1
  omega

theorem crc_append_byte (bs : List Byte) (b : Byte) : crc (bs ++ [b]) = crcByte (crc bs) b := by
  simp [crc]

/-- Settles O52: each equation of the search, the link frame read back through them, and the spelling of fields. -/
theorem framesDecode : Obligations.FramesDecode := by
  refine ⟨?frame, ?receiving, ?hunting, ?spelling, ?signed⟩
  case frame =>
    intro max body h1 hm h
    rw [linkFrame_eq, feed_hunting_sync, feed_frameTail h1 hm (hm.trans h)]
  case receiving =>
    rintro max got bytes buf len rfl rfl
    rw [feed_receiving]
    refine ⟨fun h => feed_frame_waits (.inl h), ?_, fun _ h1 hm h => feed_frame_waits (.inr ⟨h1, hm, h⟩), fun h1 hm hl => ⟨?_, ?_⟩⟩
    · rintro h2 h r rfl
      exact feed_frame_badLength h2 h
    · rintro hc r rfl
      exact feed_frame_good h1 hm hl hc
    · rintro hc r rfl
      exact feed_frame_badCrc h1 hm hl hc
  case hunting =>
    rintro max half bytes buf hbuf
    rw [feed_hunting_half, ← hbuf]
    constructor
    · rintro pre rest rfl h r rfl
      exact feed_hunting_first_sync max pre rest h
    · exact feed_hunting_no_sync max buf
  case spelling =>
    intro bs b n v
    refine ⟨by simp [linkFrame], rfl, crc_append_byte bs b, rfl, natOf_append_byte bs b, rfl, rfl, natOf_bytesOf n v, rfl, rfl,
      rfl, rfl, rfl, rfl⟩
  case signed =>
    intro bs off n v hn hl
    have hlen : (slice bs off n).length = n := by simp [slice]; omega
    have hp := pow_256_eq_two_mul hn
    refine ⟨fun h => ?_, fun h => ?_, rfl, ?_⟩
    · exact intOf_of_small (by rw [hlen]; unfold field at h; omega)
    · rw [fieldInt, intOf_of_large (by rw [hlen]; unfold field at h; omega), hlen, field, Int.pow_mul]
      rfl
    · rw [bytesOfInt, Int.pow_mul]
      rfl

/-! ## The line of a control port (R180, R181) -/

/-- A good request frame's body, found on a port's line. -/
theorem CtlPort.rxEvent_request (x : CtlPort) (tag code : Byte) (payload : List Byte) :
    x.rxEvent (.good ([0x02, tag, code] ++ payload)) = x.place ⟨tag, code, payload⟩ := by
  simp [CtlPort.rxEvent, request?]

theorem CtlPort.place_rx (x : CtlPort) (r : Request) (rx : CtlReceiver) :
    { x.place r with rx := rx } =
      if x.queue.length < 4 then { x with rx := rx, queue := x.queue ++ [r] }
      else if x.refusals.length < 8 then { x with rx := rx, refusals := x.refusals ++ [⟨r.tag, r.code⟩] }
      else { x with rx := rx } := by
  by_cases hq : x.queue.length < 4
  · simp [CtlPort.place, Config.requestPlaces, hq]
  · by_cases hr : x.refusals.length < 8
    · simp [CtlPort.place, Config.requestPlaces, Config.refusalPlaces, hq, hr]
    · simp [CtlPort.place, Config.requestPlaces, Config.refusalPlaces, hq, hr]

theorem request?_eq_none {body : List Byte} (h : body.head? ≠ some 0x02 ∨ body.length < 3) : request? body = none := by
  unfold request?
  split
  next cls tag code payload =>
    rw [if_neg]
    rintro rfl
    simp at h
    omega
  next => rfl

theorem CtlPort.bytes_line {x : CtlPort} {rx : Receiver} (h : x.rx = .line rx) (bs : List Byte) :
    x.bytes bs = { (feed 1024 rx bs).1.foldl CtlPort.rxEvent x with rx := .line (feed 1024 rx bs).2 } := by
  simp [CtlPort.bytes, h, Config.controlMaxBody]

theorem CtlPort.bytes_inBreak {x : CtlPort} (h : x.rx = .inBreak) (bs : List Byte) : x.bytes bs = x := by
  simp [CtlPort.bytes, h]

theorem State.setCtl_self (s : State) (c : CPort) : s.setCtl c (s.ctl c) = s := by
  cases c <;> rfl

theorem State.setCtl_setCtl (s : State) (c : CPort) (x y : CtlPort) : (s.setCtl c x).setCtl c y = s.setCtl c y := by
  cases c <;> rfl

/-- The record of a port whose line has gone on: nothing of it but the receiver takes part in what the events do. -/
theorem CtlPort.rxEvent_rx (x : CtlPort) (r : CtlReceiver) (e : RxEvent) :
    ({ x with rx := r } : CtlPort).rxEvent e = { x.rxEvent e with rx := r } := by
  unfold CtlPort.rxEvent
  split
  · split
    · unfold CtlPort.place
      split
      · rfl
      · split <;> rfl
    · rfl
  all_goals rfl

theorem CtlPort.foldl_rxEvent_rx (l : List RxEvent) (x : CtlPort) (r : CtlReceiver) :
    l.foldl CtlPort.rxEvent { x with rx := r } = { l.foldl CtlPort.rxEvent x with rx := r } := by
  induction l generalizing x with
  | nil => rfl
  | cons e l ih => rw [List.foldl_cons, CtlPort.rxEvent_rx, ih, List.foldl_cons]

theorem CtlPort.bytes_set_line (x : CtlPort) (rx : Receiver) (bs : List Byte) :
    ({ x with rx := .line rx } : CtlPort).bytes bs =
      { (feed 1024 rx bs).1.foldl CtlPort.rxEvent x with rx := .line (feed 1024 rx bs).2 } := by
  rw [CtlPort.bytes_line rfl, CtlPort.foldl_rxEvent_rx]

/-- Settles O15: the frame's tail is one good event, and a CRC that fails is one event without effect ahead of the search. -/
theorem controlFrameReceived : Obligations.ControlFrameReceived := by
  refine ⟨?request, ?other, ?inBreak, ?badCrc⟩
  case request =>
    intro s c tag code payload hr hx hl
    have hlen : ([0x02, tag, code] ++ payload).length = payload.length + 3 := by simp
    rw [exec_out (f := controlBytes c _) rfl hr, controlBytes, CtlPort.bytes_line hx, linkFrame_drop_two,
      feed_frameTail (by omega) (by omega) (by omega)]
    simp only [List.foldl_cons, List.foldl_nil, CtlPort.rxEvent_request, CtlPort.place_rx]
  case other =>
    intro s c body hr h1 hl hb hx
    rw [exec_out (f := controlBytes c _) rfl hr, controlBytes, CtlPort.bytes_line hx, linkFrame_drop_two,
      feed_frameTail h1 hl (by omega)]
    simp [CtlPort.rxEvent, request?_eq_none hb]
  case inBreak =>
    intro s c bytes hr hx
    rw [exec_out (f := controlBytes c _) rfl hr, controlBytes, CtlPort.bytes_inBreak hx, State.setCtl_self]
  case badCrc =>
    rintro s c got bytes buf len hr hx rfl rfl h1 hm hl hc
    rw [exec_out (f := controlBytes c _) rfl hr, exec_out (f := controlBytes c _) rfl (by simpa using hr), controlBytes,
      controlBytes, State.setCtl_ctl_self, State.setCtl_setCtl, CtlPort.bytes_line hx, CtlPort.bytes_set_line,
      feed_receiving, feed_frame_badCrc h1 hm hl hc]
    rfl

theorem field_bytesOf_two {v : Nat} (h : v < 65536) : field (bytesOf 2 v) 0 2 = v := by
  have hf := field_append [] (bytesOf 2 v) []
  rw [natOf_bytesOf_two h] at hf
  simpa using hf

theorem bytesOf_two (v : Nat) : bytesOf 2 v = [BitVec.ofNat 8 (v / 256), BitVec.ofNat 8 v] := rfl

/-- The search that follows the two bytes of a refused length: they are a sync pair, or the last may begin one. -/
theorem feed_refused_length (max : Nat) (len : BitVec 16) :
    feed max (.hunting false) (0x49 :: bytesOf 2 len.toNat) =
      if len = 0xB649#16 then ([.start], .receiving []) else ([], .hunting (len.toNat % 256 == 0xB6)) := by
  have hlt := len.isLt
  rw [bytesOf_two, feed_hunting_skip max fun h => absurd h.1 (by decide)]
  split
  next h => subst h; rfl
  next h =>
    have hs : ¬(BitVec.ofNat 8 (len.toNat / 256) = 0xB6 ∧ BitVec.ofNat 8 len.toNat = 0x49) := by
      rintro ⟨hi, lo⟩
      refine h (BitVec.eq_of_toNat_eq ?_)
      have h1 := congrArg BitVec.toNat hi
      have h2 := congrArg BitVec.toNat lo
      simp at h1 h2 ⊢
      omega
    rw [feed_hunting_skip max hs, feed_hunting_one]
    congr 2
    rw [Bool.eq_iff_iff, beq_iff_eq, beq_iff_eq, ← BitVec.toNat_inj]
    simp

theorem feed_length_refused {max : Nat} {len : BitVec 16} (h : len.toNat = 0 ∨ max < len.toNat) :
    feed max (.receiving []) (bytesOf 2 len.toNat) =
      (.badLength len.toNat :: (if len = 0xB649#16 then [.start] else []),
        if len = 0xB649#16 then .receiving [] else .hunting (len.toNat % 256 == 0xB6)) := by
  have hf := field_bytesOf_two len.isLt
  rw [feed_frame_badLength (by simp) (by rwa [hf]), hf, feed_refused_length]
  split <;> rfl

/-- Settles O16: neither a frame start nor a refused length does anything to the port but its receiver. -/
theorem controlFraming : Obligations.ControlFraming := by
  intro s c len hr
  constructor
  · intro hx
    rw [exec_out (f := controlBytes c _) rfl hr, controlBytes, CtlPort.bytes_line hx]
    rfl
  · intro hx hl
    rw [exec_out (f := controlBytes c _) rfl hr, controlBytes, CtlPort.bytes_line hx, feed_length_refused hl]
    split <;> rfl

end Sys2Proof.Machine
end

section
/-!
PROOFS. Run control (11): RESET, initialization, ARRAY START and the millisecond; and the alert unit, the event queue's
requests and the zone rules (07, 08).
-/

namespace Sys2Proof.Machine

/-! ## RESET and initialization (R194, R195) -/

/-- Every command but those of the RESET input is one step of the part. -/
theorem exec_eq_answer {i : Instr} (h1 : i ≠ .resetAsserted) (h2 : i ≠ .resetReleased) :
    ∃ f, ∀ s, exec i s = answer f s := by
  cases i with
  | resetAsserted => exact absurd rfl h1
  | resetReleased => exact absurd rfl h2
  | _ => exact ⟨_, fun _ => rfl⟩

theorem whole_held {f : State → State} {s : State} (h : s.resetAsserted = true) : whole f s = s := if_pos h

/-- Settles O4: a state in RESET holds the power-on values, and no command but the two of the input is taken in it. -/
theorem theResetLine : Obligations.TheResetLine := by
  refine ⟨fun s => ?_, fun i s hr h1 h2 => ?_, fun s hr => ?_⟩
  · exact ⟨s.inReset, rfl, rfl, rfl, rfl, rfl, rfl, fun c => by cases c <;> rfl, rfl, rfl⟩
  · obtain ⟨f, hf⟩ := exec_eq_answer h1 h2
    rw [hf, answer, whole_held hr]
  · show Host.Outcome.next _ = _
    rw [if_pos hr]
    rfl

theorem ErrorLog.kind_powerOn (k : ErrKind) : ErrorLog.powerOn.kind k = ⟨false, 0, false, k.powerOnSeverity⟩ := by
  cases k <;> rfl

/-- Settles O5: the tables of the reset state repeat the power-on record. -/
theorem resetValues : Obligations.ResetValues := by
  refine ⟨rfl, fun j => ?_, rfl, rfl, rfl, rfl, rfl, rfl, rfl, rfl, rfl, Params.get_powerOn _, fun p => ?_, fun p k => ?_,
    rfl, rfl, rfl, Params.get_powerOn, fun p => ?_⟩
  · rw [State.reset_chan]
    exact ⟨rfl, rfl, rfl⟩
  · rw [State.reset_port]
    rfl
  · rw [State.reset_port, show FieldPort.powerOn.log = ErrorLog.powerOn from rfl, ErrorLog.kind_powerOn]
    exact ⟨rfl, rfl⟩
  · rw [State.reset_port]
    exact ⟨rfl, rfl⟩

/-- Settles O6: the end of initialization, taken in INITIALIZING. -/
theorem initializationCompletes : Obligations.InitializationCompletes := by
  intro s hr ha
  rw [exec_out (f := initializationEnds) rfl hr, initializationEnds, if_pos ha]

/-! ## ARRAY START (R196) -/

theorem State.forgetHubs_true (s : State) :
    s.forgetHubs (fun _ => true) = { s with hubs := vmap (fun e => { e with expSeq := none, expAsn := none }) s.hubs } := by
  simp [State.forgetHubs, HubEntry.forget]

/-- Settles O7: the two answers of the owner. -/
theorem arrayStart : Obligations.ArrayStart := by
  intro s c tag payload h
  constructor
  · intro ha hb
    refine exec_served_of_owner (req := .arrayStart) h ((if_neg ?_).trans ?_)
    · simp [ha, hb]
    · rw [State.forgetHubs_true, State.popRequest_hubs]
  · intro hg
    exact exec_served_of_refuse (req := .arrayStart) h (if_pos (by simpa using hg))

/-! ## The millisecond (log 5) -/

theorem tickLink_running {s : State} {p : FPort} {n : Nat} (hs : (s.port p).state = .up)
    (ht : (s.port p).linkTimer = some n) :
    tickLink s p =
      if n + 1 < 200 then s.setPort p { s.port p with linkTimer := some (n + 1) } else linkTimesOut p s := by
  simp only [tickLink, hs, ht, Config.linkTimeout]
  split
  next => rw [if_neg (by omega)]
  next => rw [if_pos (by omega)]

theorem tickLink_still {s : State} {p : FPort}
    (h : ∀ n, (s.port p).state = .up → (s.port p).linkTimer = some n → False) : tickLink s p = s := by
  unfold tickLink
  split
  next n hs ht => exact (h n hs ht).elim
  next => rfl

theorem tickLink_stopped {s : State} {p : FPort} (h : (s.port p).linkTimer = none) : tickLink s p = s :=
  tickLink_still fun n _ hn => by simp [h] at hn

theorem tickHoldOff_running {s : State} {n : Nat} (hs : s.sched.state = .holding) (ht : s.sched.timer = some n) :
    tickHoldOff s =
      if 1 < n then { s with sched := { s.sched with timer := some (n - 1) } } else holdOffRunsOut s := by
  simp only [tickHoldOff, hs, ht]
  split
  next => rw [if_neg (by omega)]
  next => rw [if_pos (by omega)]

theorem tickHoldOff_still {s : State} (h : ∀ n, s.sched.state = .holding → s.sched.timer = some n → False) :
    tickHoldOff s = s := by
  unfold tickHoldOff
  split
  next n hs ht => exact (h n hs ht).elim
  next => rfl

theorem tickDwell_running {s : State} {n : Nat} (hd : s.alert.dwell = .running n) :
    tickDwell s = if 1 < n then s.setAlert { s.alert with dwell := .running (n - 1) } else dwellRunsOut s := by
  simp only [tickDwell, hd]
  split
  next => rw [if_neg (by omega)]
  next => rw [if_pos (by omega)]

theorem step_millisecond {s : State} (hp : s.pending = []) (hr : s.resetAsserted = false) :
    step s = .next (tickDwell (tickHoldOff (tickLink (tickLink (tickLink (tickLink s 0) 1) 2) 3))).transmitBoth := by
  simp only [step, hp, answer, whole_out hr]
  rfl

/-- Settles O2: a millisecond is one tick of each timer, and a tick that ends its timer is the expiry's step. -/
theorem emptyQueueLetsAMillisecondPass : Obligations.EmptyQueueLetsAMillisecondPass := by
  refine ⟨?general, ?expiries, ?quiet, ?held⟩
  case general =>
    intro s link holdOff dwell hp hr hl hh hd
    have el : link = tickLink := by
      rw [hl]
      funext s p
      split
      next n hs ht => exact (tickLink_running hs ht).symm
      next hn => exact (tickLink_still hn).symm
    have eh : holdOff = tickHoldOff := by
      rw [hh]
      funext s
      split
      next n hs ht => exact (tickHoldOff_running hs ht).symm
      next hn => exact (tickHoldOff_still hn).symm
    have ed : dwell = tickDwell := by
      rw [hd]
      funext s
      split
      next n hn => exact (tickDwell_running hn).symm
      all_goals simp [tickDwell, *]
    rw [el, eh, ed, step_millisecond hp hr]
  case expiries =>
    exact fun s p hr => ⟨exec_out (f := linkTimesOut p) rfl hr, exec_out (f := holdOffRunsOut) rfl hr,
      exec_out (f := dwellRunsOut) rfl hr⟩
  case quiet =>
    intro s left dwell hp hr hl hs ht hd
    have h1 : tickHoldOff s = { s with sched := { s.sched with timer := some (left + 1) } } := by
      simp [tickHoldOff_running hs ht]
    have h2 : tickDwell { s with sched := { s.sched with timer := some (left + 1) } } =
        ({ s with sched := { s.sched with timer := some (left + 1) } } : State).setAlert
          { s.alert with dwell := .running (dwell + 1) } := by
      rw [tickDwell_running (s := { s with sched := { s.sched with timer := some (left + 1) } }) hd]
      exact if_pos (by omega)
    rw [step_millisecond hp hr, tickLink_stopped (hl 0), tickLink_stopped (hl 1), tickLink_stopped (hl 2),
      tickLink_stopped (hl 3), h1, h2]
  case held =>
    intro s hp hr
    simp only [step, hp, answer, whole_held hr]

/-! ## The alert unit (R156 to R163) -/

/-- Settles O40: the table of the rise, and the two ends of the dwell. -/
theorem alertLevels : Obligations.AlertLevels := by
  refine ⟨fun a d q => ⟨rfl, fun h => ?_, fun h => ?_, fun h => ?_, fun h => ?_⟩, ?_⟩
  · cases hl : a.level with
    | red => exact absurd hl h
    | green | amber => simp [Alert.take, hl]
  · simp [Alert.take, h]
  · cases hl : a.level with
    | red => exact absurd hl h
    | green | amber => simp [Alert.take, hl]
  · simp [Alert.take, h]
  · rintro s left a hr hd rfl
    rw [exec_out (f := dwellRunsOut) rfl hr]
    by_cases ha : s.alert.acknowledged = true <;> simp [dwellRunsOut, hd, ha, State.changeAlert]

theorem alertAckOwner_keep {c : CPort} {b : List Byte} {s : State} {st : Status}
    (h : s.alert.ack s.dwellMs c (field b 0 4) = (st, none)) : alertAckOwner c b s = ⟨st, s.alert.ackBytes, s⟩ := by
  simp [alertAckOwner, h]

theorem alertAckOwner_change {c : CPort} {b : List Byte} {s : State} {st : Status} {a : Alert}
    (h : s.alert.ack s.dwellMs c (field b 0 4) = (st, some a)) :
    alertAckOwner c b s = ⟨st, a.ackBytes, (s.setAlert a).raiseBoth .alert⟩ := by
  simp [alertAckOwner, h, State.changeAlert]

section
variable {s : State} {c : CPort} {tag : Byte} {payload : List Byte}

/-- An ALERT ACK that changes nothing. -/
theorem exec_alertAck_keep (h : Served s c .alertAck tag payload) {st : Status}
    (ha : s.alert.ack s.dwellMs c (field payload 0 4) = (st, none)) :
    exec (.alertAck c) s = .next ((s.popRequest c).replied c .alertAck tag st s.alert.ackBytes) := by
  refine exec_served_of_owner (req := .alertAck) h ((alertAckOwner_keep (st := st) ?_).trans ?_)
  · simpa [State.dwellMs] using ha
  · rw [State.popRequest_alert]

/-- An ALERT ACK that changes the alert record. -/
theorem exec_alertAck_change (h : Served s c .alertAck tag payload) {st : Status} {a : Alert}
    (ha : s.alert.ack s.dwellMs c (field payload 0 4) = (st, some a)) :
    exec (.alertAck c) s =
      .next (State.replied (((s.popRequest c).setAlert a).raiseBoth .alert) c .alertAck tag st a.ackBytes) :=
  exec_served_of_owner (req := .alertAck) h (alertAckOwner_change (by simpa [State.dwellMs] using ha))

end

/-- Settles O39: the cases of the rule are the branches of the acknowledgement. -/
theorem alertAck : Obligations.AlertAck := by
  rintro s c tag payload n h rfl out rfl
  have keep := fun st => exec_alertAck_keep (st := st) h
  have change := fun st a => exec_alertAck_change (st := st) (a := a) h
  unfold State.dwellMs at keep change
  refine ⟨fun hl => keep _ ?_, fun hl hn => keep _ ?_, fun hl hn => keep _ ?_, fun hl hn hc => keep _ ?_, ?_, ?_, ?_,
    fun hl hn hd ha => keep _ ?_⟩
  · simp [Alert.ack, hl]
  · simp [Alert.ack, hl, hn]
  · simp [Alert.ack, hl, hn, hn.le.not_gt]
  · simp [Alert.ack, hl, hn, hc]
  · rintro a hl hn hc rfl
    exact change _ _ (by simp [Alert.ack, hl, hn, hc])
  · rintro a hl hn hd rfl
    exact change _ _ (by simp [Alert.ack, hl, hn, hd])
  · rintro a hl hn hd ha rfl
    refine change _ _ ?_
    cases hw : s.alert.dwell with
    | expired => exact absurd hw hd
    | running _ | stopped => simp [Alert.ack, hl, hn, hw, ha]
  · cases hw : s.alert.dwell with
    | expired => exact absurd hw hd
    | running _ | stopped => simp [Alert.ack, hl, hn, hw, ha]

theorem Injection.ofCode_code (i : Injection) : Injection.ofCode i.code = some i := by
  cases i <;> rfl

theorem Injection.ofCode_large {n : Nat} (h : 2 < n) : Injection.ofCode n = none := by
  obtain ⟨m, rfl⟩ := Nat.exists_eq_add_of_le' h
  rfl

/-- Settles O41: the three answers of the owner. -/
theorem injectionSet : Obligations.InjectionSet := by
  intro s c tag payload h
  constructor
  · intro i hi
    constructor
    · intro hn
      exact exec_served_of_owner (req := .injectionSet) h
        (by simp [ownerOf, injectionSetOwner, hi, Injection.ofCode_code, hn])
    · intro he
      exact exec_served_of_refuse (req := .injectionSet) h
        (by simp [ownerOf, injectionSetOwner, hi, Injection.ofCode_code, he])
  · intro hl
    exact exec_served_of_refuse (req := .injectionSet) h (by simp [ownerOf, injectionSetOwner, Injection.ofCode_large hl])

/-! ## The event queue's requests (R153, R154) -/

/-- The records above a number, where the first of them is known. -/
theorem EventQueue.above_eq_cons {q : EventQueue} {n : Nat} {pre post : List EventRecord} {e : EventRecord}
    (hr : q.records = pre ++ e :: post) (hp : ∀ r ∈ pre, r.sequence ≤ n) (he : n < e.sequence) :
    ∃ l, q.above n = e :: l := by
  refine ⟨post.filter fun e => decide (n < e.sequence), ?_⟩
  have hpre : pre.filter (fun e => decide (n < e.sequence)) = [] :=
    List.filter_eq_nil_iff.2 fun r hr => by simpa using hp r hr
  simp [EventQueue.above, hr, hpre, he]

/-- Settles O38: the first record above the number answers the fetch; the bytes of a record are those of its fields. -/
theorem eventRequests : Obligations.EventRequests := by
  refine ⟨?_, fun e => rfl⟩
  rintro s c tag payload q rfl
  refine ⟨fun h => ⟨fun pre e post hr hp he => ?_, fun hn => ?_⟩, ?_⟩
  · obtain ⟨l, hl⟩ := EventQueue.above_eq_cons hr hp he
    refine exec_served_of_owner (req := .eventFetch) h ?_
    simp only [ownerOf, eventFetchOwner, State.popRequest_queue, hl]
    rfl
  · have hl : s.queue.above (field payload 0 4) = [] := List.filter_eq_nil_iff.2 fun r hr => by simpa using hn r hr
    exact exec_served_of_refuse (req := .eventFetch) h (by simp [ownerOf, eventFetchOwner, hl])
  · rintro h left rfl
    exact exec_served_of_owner (req := .eventAck) h (by simp [ownerOf, eventAckOwner, EventQueue.above])

/-! ## Zone rules (R145) -/

theorem yesNo?_toNat (b : Bool) : yesNo? b.toNat = some b := by
  cases b <;> rfl

theorem yesNo?_large {n : Nat} (h : 1 < n) : yesNo? n = none := by
  obtain ⟨m, rfl⟩ := Nat.exists_eq_add_of_le' h
  rfl

theorem yesNo?_eq_some {n : Nat} {b : Bool} (h : yesNo? n = some b) : n ≤ 1 := by
  by_contra hn
  rw [yesNo?_large (by omega)] at h
  cases h

theorem ordered_iff {lo hi most : Nat} : ordered lo hi most = true ↔ lo ≤ hi ∧ hi ≤ most := decide_eq_true_iff

theorem ZoneRule.inRange_iff {z : ZoneRule} : z.inRange = true ↔
    (z.ix0 ≤ z.ix1 ∧ z.ix1 ≤ 31) ∧ (z.iy0 ≤ z.iy1 ∧ z.iy1 ≤ 31) ∧ (z.iz0 ≤ z.iz1 ∧ z.iz1 ≤ 31) ∧
      (z.shutIn.amber ≤ z.shutIn.red ∧ z.shutIn.red ≤ 3825) ∧
      (z.circulating.amber ≤ z.circulating.red ∧ z.circulating.red ≤ 3825) ∧
      (z.stimulating.amber ≤ z.stimulating.red ∧ z.stimulating.red ≤ 3825) := by
  simp only [ZoneRule.inRange, Bool.and_eq_true, ordered_iff, and_assoc]

/-- The owner of ZONE SET answers OK exactly where it sets the rule. -/
theorem zoneSetOwner_range {b : List Byte} {s : State}
    (h : ∀ z, zoneRule? b = some z → field b 0 1 < 8 → z.inRange = true → False) : zoneSetOwner b s = refuse .range s := by
  unfold zoneSetOwner
  split
  next z hz =>
    split
    next hi =>
      split
      next hr => exact (h z hz hi hr).elim
      next => rfl
    next => rfl
  next => rfl

/-- Settles O37: a rule is set exactly when its number, its two codes, its bounds and its thresholds are in range. -/
theorem zoneSet : Obligations.ZoneSet := by
  rintro s c tag payload enabled suppress z h hz
  constructor
  · intro i hi he hs x1 x2 y1 y2 z1 z2 a1 a2 b1 b2 c1 c2
    have hrule : zoneRule? payload = some z := by simp [zoneRule?, he, hs, yesNo?_toNat, hz]
    have hr : z.inRange = true := ZoneRule.inRange_iff.2 ⟨⟨x1, x2⟩, ⟨y1, y2⟩, ⟨z1, z2⟩, ⟨a1, a2⟩, ⟨b1, b2⟩, c1, c2⟩
    exact exec_served_of_owner (req := .zoneSet) h (by simp [ownerOf, zoneSetOwner, hrule, hr, hi])
  · intro hbad
    refine exec_served_of_refuse (req := .zoneSet) h (zoneSetOwner_range fun z' hz' hi hr => ?_)
    unfold zoneRule? at hz'
    split at hz'
    next e p he hp =>
      have he' := yesNo?_eq_some he
      have hp' := yesNo?_eq_some hp
      cases hz'
      rw [ZoneRule.inRange_iff] at hr
      subst hz
      simp only at hbad hr
      omega
    next => cases hz'

end Sys2Proof.Machine
end

section
/-!
PROOFS. The control ports (10): notice masks, the transmitter's choice with what it sends, and the port reset.
-/

namespace Sys2Proof.Machine

/-! ## Sets of kinds (R185, R198) -/

theorem NoticeKind.mem_all (k : NoticeKind) : k ∈ NoticeKind.all := by
  cases k <;> decide

/-- A kind is found again at its bit in the list of all. -/
theorem NoticeKind.all_bit (k : NoticeKind) : NoticeKind.all[k.code - 1]? = some k := by
  cases k <;> rfl

theorem NoticeKind.bit_injective {a b : NoticeKind} (h : a.code - 1 = b.code - 1) : a = b :=
  Option.some.inj (by rw [← a.all_bit, ← b.all_bit, h])

theorem noticeSet?_eq_some_iff {v : Nat} {ks : List NoticeKind} :
    noticeSet? v = some ks ↔ v < 1024 ∧ ks = NoticeKind.all.filter fun k => v.testBit (k.code - 1) := by
  unfold noticeSet? membersOf
  split
  next h => exact ⟨fun he => ⟨h, (Option.some.inj he).symm⟩, fun he => congrArg some he.2.symm⟩
  next h => exact ⟨fun he => (nomatch he), fun he => absurd he.1 h⟩

theorem noticeSetOf_bits (ks : List NoticeKind) :
    ∃ u, noticeSetOf ks = bytesOf 2 u ∧ u < 1024 ∧ ∀ k : NoticeKind, u.testBit (k.code - 1) = true ↔ k ∈ ks := by
  refine ⟨_, rfl, maskOf_lt _ ks 10 (fun k => by cases k <;> decide), fun k => ?_⟩
  rw [testBit_maskOf, List.any_eq_true]
  constructor
  · rintro ⟨a, ha, he⟩
    exact NoticeKind.bit_injective (by simpa using he) ▸ ha
  · exact fun hk => ⟨k, hk, by simp⟩

/-- The kinds named are those of the set, where it names some and every one can be named on the port. -/
theorem namedKinds?_eq_some {c : CPort} {payload : List Byte} {ks : List NoticeKind}
    (h : noticeSet? (field payload 0 2) = some ks) (hne : ks ≠ [])
    (hall : ∀ k ∈ ks, k.maskable = true ∧ k.receivedBy c = true) : namedKinds? c payload = some ks := by
  cases ks with
  | nil => exact absurd rfl hne
  | cons k l =>
    unfold namedKinds?
    rw [h]
    exact if_pos (List.all_eq_true.2 fun a ha => by simp [NoticeKind.nameable, hall a ha])

theorem namedKinds?_eq_none {c : CPort} {payload : List Byte}
    (h : noticeSet? (field payload 0 2) = none ∨ field payload 0 2 = 0 ∨
      ∃ ks, noticeSet? (field payload 0 2) = some ks ∧ ∃ k ∈ ks, k.maskable = false ∨ k.receivedBy c = false) :
    namedKinds? c payload = none := by
  unfold namedKinds?
  rcases h with h | h | ⟨ks, h, k, hk, hbad⟩
  · rw [h]
  · rw [h]
    rfl
  · rw [h]
    cases ks with
    | nil => rfl
    | cons a l =>
      refine if_neg fun hall => ?_
      have := List.all_eq_true.1 hall k hk
      simp only [NoticeKind.nameable, Bool.and_eq_true] at this
      rcases hbad with hb | hb <;> simp [hb] at this

/-! ## Notice masks (R186, R187) -/

theorem State.popRequest_ctl (s : State) (c : CPort) :
    (s.popRequest c).ctl c = { s.ctl c with queue := (s.ctl c).queue.tail } := by
  cases c <;> rfl

theorem CtlPort.mem_maskKinds {x : CtlPort} {ks : List NoticeKind} {k : NoticeKind} :
    k ∈ (x.maskKinds ks).mask ↔ k ∈ x.mask ∨ k ∈ ks := by
  simp [CtlPort.maskKinds, NoticeKind.mem_all]

theorem CtlPort.mem_unmaskKinds {x : CtlPort} {ks : List NoticeKind} {k : NoticeKind} :
    k ∈ (x.unmaskKinds ks).mask ↔ k ∈ x.mask ∧ k ∉ ks := by
  simp [CtlPort.unmaskKinds]

section
variable {c : CPort} {payload : List Byte} {ks : List NoticeKind} {t : State}

theorem noticeMaskSetOwner_ok (hk : namedKinds? c payload = some ks) (h : ∃ k ∈ ks, k ∉ (t.ctl c).mask) :
    noticeMaskSetOwner c payload t =
      ⟨.ok, noticeSetOf ((t.ctl c).maskKinds ks).mask, t.setCtl c ((t.ctl c).maskKinds ks)⟩ := by
  simp only [noticeMaskSetOwner, hk]
  exact if_neg (by simpa using h)

theorem noticeMaskSetOwner_nothing (hk : namedKinds? c payload = some ks) (h : ∀ k ∈ ks, k ∈ (t.ctl c).mask) :
    noticeMaskSetOwner c payload t = ⟨.nothing, noticeSetOf (t.ctl c).mask, t⟩ := by
  simp only [noticeMaskSetOwner, hk]
  exact if_pos (by simpa using h)

theorem noticeMaskClearOwner_ok (hk : namedKinds? c payload = some ks) (h : ∃ k ∈ ks, k ∈ (t.ctl c).mask) :
    noticeMaskClearOwner c payload t =
      ⟨.ok, noticeSetOf ((t.ctl c).unmaskKinds ks).mask, t.setCtl c ((t.ctl c).unmaskKinds ks)⟩ := by
  simp only [noticeMaskClearOwner, hk]
  exact if_neg (by simpa using h)

theorem noticeMaskClearOwner_nothing (hk : namedKinds? c payload = some ks) (h : ∀ k ∈ ks, k ∉ (t.ctl c).mask) :
    noticeMaskClearOwner c payload t = ⟨.nothing, noticeSetOf (t.ctl c).mask, t⟩ := by
  simp only [noticeMaskClearOwner, hk]
  exact if_pos (by simpa using h)

end

/-- Settles O14: the kinds a mask request names, the two answers of each owner, and the sets of kinds. -/
theorem noticeMasks : Obligations.NoticeMasks := by
  refine ⟨?named, ?refused, ?raised, fun v ks => ⟨noticeSet?_eq_some_iff, noticeSetOf_bits ks⟩,
    fun k => by cases k <;> simp [NoticeKind.maskable, NoticeKind.receivedBy]⟩
  case named =>
    intro s c tag payload ks hks hne hall
    have hk := namedKinds?_eq_some hks hne hall
    have hmask : ((s.popRequest c).ctl c).mask = (s.ctl c).mask := by rw [State.popRequest_ctl]
    have hpend : ((s.popRequest c).ctl c).pending = (s.ctl c).pending := by rw [State.popRequest_ctl]
    constructor
    · intro h hl
      have hs : Served s c .noticeMaskSet tag payload := h.served rfl rfl (by simp [Req.lengthOk, hl])
      refine ⟨fun hn => ⟨((s.popRequest c).ctl c).maskKinds ks, ?_, fun k => ?_, ?_⟩, fun hm => ?_⟩
      · exact exec_served_of_owner (req := .noticeMaskSet) hs (noticeMaskSetOwner_ok hk (by rwa [hmask]))
      · rw [CtlPort.mem_maskKinds, hmask]
      · rw [← hpend]
        rfl
      · refine exec_served_of_owner (req := .noticeMaskSet) hs ((noticeMaskSetOwner_nothing hk (by rwa [hmask])).trans ?_)
        rw [hmask]
    · intro h hl
      have hs : Served s c .noticeMaskClear tag payload := h.served rfl rfl (by simp [Req.lengthOk, hl])
      refine ⟨fun hn => ⟨((s.popRequest c).ctl c).unmaskKinds ks, ?_, fun k => ?_, rfl⟩, fun hm => ?_⟩
      · exact exec_served_of_owner (req := .noticeMaskClear) hs (noticeMaskClearOwner_ok hk (by rwa [hmask]))
      · rw [CtlPort.mem_unmaskKinds, hmask]
      · refine exec_served_of_owner (req := .noticeMaskClear) hs
          ((noticeMaskClearOwner_nothing hk (by rwa [hmask])).trans ?_)
        rw [hmask]
  case refused =>
    intro s c tag payload hl hbad
    have hk := namedKinds?_eq_none hbad
    refine ⟨fun h => ?_, fun h => ?_⟩
    · exact exec_served_of_refuse (req := .noticeMaskSet) (h.served rfl rfl (by simp [Req.lengthOk, hl]))
        (by simp [ownerOf, noticeMaskSetOwner, hk])
    · exact exec_served_of_refuse (req := .noticeMaskClear) (h.served rfl rfl (by simp [Req.lengthOk, hl]))
        (by simp [ownerOf, noticeMaskClearOwner, hk])
  case raised =>
    intro s c k
    refine ⟨fun h => ?_, fun hm hp => ?_, rfl⟩
    · rw [State.raise, CtlPort.raise, if_pos h, State.setCtl_self]
    · rw [State.raise, CtlPort.raise, if_neg (by simp [hm, hp])]

/-! ## The transmitter (R184, R185) -/

section
variable {s : State} {c : CPort}

theorem State.transmit_busy (h : (s.ctl c).tx ≠ none) : s.transmit c = s :=
  if_pos (Option.isSome_iff_ne_none.2 h)

theorem State.transmit_reply (h : (s.ctl c).tx = none) {rp : ReplyPlace} (hr : (s.ctl c).reply = some rp)
    (ha : rp.ahead = 0 ∨ (s.ctl c).refusals = []) : s.transmit c = s.setCtl c ((s.ctl c).sendReply rp) := by
  simp only [State.transmit, h, hr, Option.isSome_none, Bool.false_eq_true, if_false]
  cases hl : (s.ctl c).refusals with
  | nil => rfl
  | cons r rest => exact if_pos (ha.resolve_right (by simp [hl]))

theorem State.transmit_refusal (h : (s.ctl c).tx = none) {r : Refused} {rest : List Refused}
    (hr : (s.ctl c).refusals = r :: rest) (ha : ∀ rp, (s.ctl c).reply = some rp → rp.ahead ≠ 0) :
    s.transmit c = s.setCtl c ((s.ctl c).sendRefusal r rest) := by
  simp only [State.transmit, h, hr, Option.isSome_none, Bool.false_eq_true, if_false]
  cases hp : (s.ctl c).reply with
  | none => rfl
  | some rp => exact if_neg (ha rp hp)

theorem State.transmit_notice (h : (s.ctl c).tx = none) (hp : (s.ctl c).reply = none) (hr : (s.ctl c).refusals = [])
    {k : NoticeKind} {rest : List NoticeKind} (hk : (s.ctl c).pending = k :: rest) :
    s.transmit c = s.sendNotice c k rest := by
  simp [State.transmit, h, hp, hr, hk]

theorem State.transmit_nothing (h : (s.ctl c).tx = none) (hp : (s.ctl c).reply = none) (hr : (s.ctl c).refusals = [])
    (hk : (s.ctl c).pending = []) : s.transmit c = s := by
  simp [State.transmit, h, hp, hr, hk]

end

theorem State.changedChannels_eq (s : State) :
    s.changedChannels = ((List.finRange 256).filter fun j => (s.chan j).changed).map fun j => (j, s.chan j) := by
  rw [State.changedChannels, enumFin_eq_map, List.filter_map]
  rfl

/-- Settles O17: each case of the choice, what it puts on the line, and the bytes of every payload. -/
theorem transmission : Obligations.Transmission := by
  refine ⟨?ends, ?choice, ?payloads, fun _ _ _ _ => ⟨rfl, rfl, rfl, rfl⟩, fun _ => rfl⟩
  case ends =>
    intro s c f hr hf
    rw [exec_out (f := transmissionEnds c) rfl hr, transmissionEnds]
    simp only [CtlPort.sent, hf]
  case choice =>
    intro s c
    refine ⟨State.transmit_busy, fun h rp hr ha => State.transmit_reply h hr ha, ?_, ?_, State.transmit_nothing⟩
    · intro h r rest hr ha
      rewrite [State.transmit_refusal h hr ha, CtlPort.sendRefusal]
      cases (s.ctl c).reply <;> rfl
    · rintro h hp hr k rest t hk rfl
      rw [State.transmit_notice h hp hr hk]
      constructor
      · exact fun hc => if_neg hc
      · rintro rfl
        rw [State.sendNotice, if_pos rfl]
        cases c <;> rfl
  case payloads =>
    intro s c
    refine ⟨rfl, rfl, ?event, ?alert, ?channel, ?fieldError, rfl, rfl, rfl, rfl⟩
    case event =>
      simp only [State.noticePayload, EventQueue.noticeBytes]
      cases s.queue.last <;> rfl
    case alert =>
      simp only [State.noticePayload, Alert.bytes]
      cases s.alert.dwell <;> rfl
    case channel =>
      rintro l rfl
      simp [State.noticePayload, State.channelNoticeBytes, State.changedChannels_eq, List.flatMap_map]
    case fieldError =>
      simp only [State.noticePayload, State.fieldErrorNoticeBytes, toList_eq_map, List.flatMap_map]
      refine List.flatMap_congr fun p _ => ?_
      simp only [ErrorLog.firstByte, State.port]
      cases (vget s.ports p).log.first <;> rfl

/-! ## Port reset (R188, R189) -/

/-- The record of a port after its reset and the notice of it. -/
theorem CtlPort.resetTaken_raise (x : CtlPort) :
    x.resetTaken.raise .portReset =
      { x with
        rx := .inBreak, spacing := 16, queue := [], refusals := [], mask := [], pending := [.portReset]
        reply := match x.reply with
          | some r => if r.begun then some { r with ahead := 0 } else none
          | none => none
        resets := if x.resets < 65535 then x.resets + 1 else x.resets } := by
  have hr : ((x.reply.filter fun r => r.begun).map fun r => { r with ahead := 0 }) = match x.reply with
      | some r => if r.begun then some { r with ahead := 0 } else none
      | none => none := by
    cases x.reply with
    | none => rfl
    | some r => by_cases hb : r.begun = true <;> simp [Option.filter, hb]
  simp only [CtlPort.raise, CtlPort.resetTaken, List.not_mem_nil, or_self, if_false, hr]
  rfl

theorem portResets_survey {s : State} {rx : Receiver} (h : (s.ctl .survey).rx = .line rx) :
    portResets .survey s = s.setCtl .survey ((s.ctl .survey).resetTaken.raise .portReset) := by
  simp only [portResets, h, State.raise, State.setCtl_ctl_self, State.setCtl_setCtl]

theorem portResets_plant {s : State} {rx : Receiver} (h : (s.ctl .plant).rx = .line rx) :
    portResets .plant s =
      (s.setCtl .plant ((s.ctl .plant).resetTaken.raise .portReset)).raise .survey .plantLink := by
  simp only [portResets, h, State.raise, State.setCtl_ctl_self, State.setCtl_setCtl]

/-- Settles O18: the reset with its notice is one record, and PLANT LINK follows it for the plant port. -/
theorem portReset : Obligations.PortReset := by
  intro s c hr
  constructor
  · rintro rx hx x rfl
    cases c with
    | survey =>
      rewrite [exec_out (f := portResets .survey) rfl hr, portResets_survey hx, CtlPort.resetTaken_raise]
      rfl
    | plant =>
      rewrite [exec_out (f := portResets .plant) rfl hr, portResets_plant hx, CtlPort.resetTaken_raise]
      rfl
  · intro hx
    refine ⟨?_, ?_⟩
    · rw [exec_out (f := portResets c) rfl hr]
      simp only [portResets, hx]
    · rw [exec_out (f := breakEnds c) rfl hr]
      simp only [breakEnds, hx]

end Sys2Proof.Machine
end

section
/-!
PROOFS. The requests of the channels, the field ports and the hub map (02, 03), and the requests that only read a record.
-/

namespace Sys2Proof.Machine

/-! ## The numbers that name an entry -/

theorem channel?_val (j : Fin 256) : channel? j.val = some j := dif_pos j.isLt

theorem channel?_large {v : Nat} (h : 255 < v) : channel? v = none := dif_neg (by omega)

theorem fport?_val (p : FPort) : fport? p.val = some p := dif_pos p.isLt

theorem fport?_large {v : Nat} (h : 3 < v) : fport? v = none := dif_neg (by omega)

theorem hub?_val (h : Fin 16) : hub? h.val = some h := dif_pos h.isLt

theorem hub?_large {v : Nat} (h : 15 < v) : hub? v = none := dif_neg (by omega)

theorem polarity?_code (p : Polarity) : polarity? p.code = some p := by
  cases p <;> rfl

theorem polarity?_large {v : Nat} (h : 1 < v) : polarity? v = none := by
  obtain ⟨m, rfl⟩ := Nat.exists_eq_add_of_le' h
  rfl

/-! ## Channel settings (R25, R40) -/

theorem givenConfig?_eq_none {b : List Byte} (h : 1 < field b 3 1 ∨ 1 < field b 13 1) : givenConfig? b = none := by
  unfold givenConfig?
  rcases h with h | h
  · rw [polarity?_large h]
  · rw [yesNo?_large h]
    cases polarity? (field b 3 1) <;> rfl

theorem channelConfigOwner_range {b : List Byte} {s : State} (h : 255 < field b 0 2 ∨ 1 < field b 3 1 ∨ 1 < field b 13 1) :
    channelConfigOwner b s = refuse .range s := by
  unfold channelConfigOwner
  rcases h with h | h
  · rw [channel?_large h]
  · rw [givenConfig?_eq_none h]
    cases channel? (field b 0 2) <;> rfl

/-- A clamped configuration is the one given exactly if its weight and its clip level are. -/
theorem ChanConfig.clamped_eq_self_iff (c : ChanConfig) :
    c.clamped = c ↔ c.clamped.weight = c.weight ∧ c.clamped.clip = c.clip := by
  constructor
  · exact fun h => ⟨by rw [h], by rw [h]⟩
  · rintro ⟨hw, hc⟩
    cases c
    simp only [ChanConfig.clamped] at hw hc ⊢
    rw [hw, hc]

theorem alarmSet?_bits (n q p : Bool) : alarmSet? (n.toNat + 2 * q.toNat + 4 * p.toNat) = some ⟨n, q, p⟩ := by
  revert n q p
  decide

theorem channelAlarmClearOwner_range {b : List Byte} {s : State}
    (h : 255 < field b 0 2 ∨ field b 2 1 = 0 ∨ 7 < field b 2 1) : channelAlarmClearOwner b s = refuse .range s := by
  unfold channelAlarmClearOwner
  rcases h with h | h | h
  · rw [channel?_large h]
  · rw [h]
    cases channel? (field b 0 2) <;> rfl
  · rw [show alarmSet? (field b 2 1) = none from if_neg (by omega)]
    cases channel? (field b 0 2) <;> rfl

/-- The latched alarms after the named ones that are not kept have been taken away. -/
theorem Alarms.diff_diff_inter (a : Alarms) (n q p x y z : Bool) :
    a.diff ((⟨n, q, p⟩ : Alarms).diff ((⟨n, q, p⟩ : Alarms).inter ⟨x, y, z⟩)) =
      ⟨a.noisy && (!n || (n && x)), a.quiet && (!q || (q && y)), a.clipped && (!p || (p && z))⟩ := by
  simp only [Alarms.diff, Alarms.inter, Alarms.mk.injEq]
  refine ⟨?_, ?_, ?_⟩
  · cases n <;> cases x <;> rfl
  · cases q <;> cases y <;> rfl
  · cases p <;> cases z <;> rfl

theorem Alarms.inter_eq_none_iff (a : Alarms) (n q p : Bool) :
    a.inter ⟨n, q, p⟩ = Alarms.none ↔ ¬(n && a.noisy || q && a.quiet || p && a.clipped) = true := by
  simp only [Alarms.inter, Alarms.none, Alarms.mk.injEq, Bool.or_eq_true, not_or, Bool.not_eq_true, Bool.and_comm, and_assoc]

/-- Settles O19: the owner's two answers for a configuration and for an alarm set, and what it refuses. -/
theorem channelSettings : Obligations.ChannelSettings := by
  constructor
  · intro s c tag payload h
    refine ⟨fun j pol am cfg hj hp ha hcfg => ?_, fun hbad => ?_⟩
    · have hg : givenConfig? payload =
          some ⟨field payload 2 1, pol, field payload 4 3, field payload 7 3, field payload 10 3, am⟩ := by
        simp [givenConfig?, hp, ha, polarity?_code, yesNo?_toNat]
      generalize hgiven : (⟨field payload 2 1, pol, field payload 4 3, field payload 7 3, field payload 10 3, am⟩ :
        ChanConfig) = given at hg
      have hc : cfg = given.clamped := by rw [hcfg, ← hgiven]; rfl
      have hiff := given.clamped_eq_self_iff
      rw [← hc, show given.weight = field payload 2 1 by rw [← hgiven], show given.clip = field payload 4 3 by
        rw [← hgiven]] at hiff
      refine exec_served_of_owner (req := .channelConfig) h ?_
      simp only [ownerOf, channelConfigOwner, hj, channel?_val, hg, ← hc, hiff, State.popRequest_chan,
        State.popRequest_sched, Channel.configure, Option.isNone_iff_eq_none]
      split <;> rfl
    · exact exec_served_of_refuse (req := .channelConfig) h (channelConfigOwner_range hbad)
  · intro s c tag payload h
    refine ⟨fun j n q p kept after hj hv hany hk ha => ?_, fun hbad => ?_⟩
    · have hne : (⟨n, q, p⟩ : Alarms) ≠ Alarms.none := by
        rintro he
        cases he
        cases hany
      have hafter := Alarms.diff_diff_inter (s.chan j).alarms n q p (s.chan j).noisyHold.established
        (s.chan j).quietHold.established (s.chan j).clipActive
      refine exec_served_of_owner (req := .channelAlarmClear) h ?_
      subst hk ha
      simp only [ownerOf, channelAlarmClearOwner, hj, channel?_val, hv, alarmSet?_bits, hne, if_false,
        State.popRequest_chan, Channel.establishedNow, hafter, Alarms.inter_eq_none_iff, ite_not]
      rfl
    · exact exec_served_of_refuse (req := .channelAlarmClear) h (channelAlarmClearOwner_range hbad)

/-! ## Enable and disable (R27, R28) -/

theorem State.isMember_of_not_live {s : State} {j : Fin 256} (h : (s.chan j).state ≠ .live) : s.isMember j = false := by
  unfold State.isMember Channel.member
  split
  · simp [h]
  · rfl

theorem State.popRequest_isMember (s : State) (c : CPort) (j : Fin 256) : (s.popRequest c).isMember j = s.isMember j := by
  simp [State.isMember]

@[simp] theorem State.moveChan_chan_self (s : State) (j : Fin 256) (dest : ChanState) (u : Channel → Channel) :
    (s.moveChan j dest u).chan j = { u (s.chan j) with state := dest, changed := true } := by
  simp [State.moveChan, State.chan, State.setChan]

/-- A channel that leaves the part's work, the change reported: nothing follows unless a member leaves a HOLDING scheduler. -/
theorem State.notified_discard {s : State} {j : Fin 256} {dest : ChanState} (hd : dest ≠ .live) :
    s.notified j (fun s => s.moveChan j dest Channel.discard) =
      if s.sched.state = .holding ∧ s.isMember j = true then (s.moveChan j dest Channel.discard).holdingTest
      else s.moveChan j dest Channel.discard := by
  have hout : (s.moveChan j dest Channel.discard).isMember j = false := State.isMember_of_not_live (by simpa using hd)
  rw [State.notified_eq, hout]
  by_cases hm : s.isMember j = true
  · rw [if_neg (by simp [hm])]
    by_cases hs : s.sched.state = .holding
    · rw [if_pos ⟨hs, hm⟩]
    · rw [if_neg (by simp [hs]), State.holdingTest, if_neg (by simp [hs])]
  · rw [if_pos (by simpa using hm), if_neg (by simp [hm])]

/-- Settles O20: the move of each owner, reported to the scheduler. -/
theorem channelEnableDisable : Obligations.ChannelEnableDisable := by
  constructor
  · intro s c tag payload h
    refine ⟨fun j hj => ⟨fun ho => ?_, fun ho => ?_⟩, fun hl => ?_⟩
    · have hm : (s.popRequest c).isMember j = false := State.isMember_of_not_live (by simp [ho])
      have hn := State.notified_discard (s := s.popRequest c) (j := j) (dest := .await) (by decide)
      rw [if_neg (by simp [hm])] at hn
      refine exec_served_of_owner (req := .channelEnable) h ?_
      simp only [ownerOf, channelEnableOwner, hj, channel?_val, State.popRequest_chan, ho, if_true, hn]
      simp only [State.moveChan, State.popRequest_chan, ho]
      rfl
    · exact exec_served_of_refuse (req := .channelEnable) h
        (by simp [ownerOf, channelEnableOwner, hj, channel?_val, ho])
    · exact exec_served_of_refuse (req := .channelEnable) h (by simp [ownerOf, channelEnableOwner, channel?_large hl])
  · intro s c tag payload h
    refine ⟨fun j t hj ht => ?_, fun hl => ?_⟩
    · have hmove : (s.popRequest c).moveChan j .off Channel.discard = t := by
        rw [ht]
        simp only [State.moveChan, State.popRequest_chan]
        rfl
      have hn := State.notified_discard (s := s.popRequest c) (j := j) (dest := .off) (by decide)
      rw [hmove, State.popRequest_sched, State.popRequest_isMember] at hn
      have ok : (s.chan j).state ≠ .off → ∀ u, (s.popRequest c).notified j (fun s => s.moveChan j .off Channel.discard) = u →
          exec (.channelDisable c) s = .next (u.replied c .channelDisable tag .ok []) := by
        rintro ho u rfl
        exact exec_served_of_owner (req := .channelDisable) h
          (by simp only [ownerOf, channelDisableOwner, hj, channel?_val, State.popRequest_chan, ho, if_false])
      refine ⟨fun ho hno => ok ho _ (hn.trans (if_neg ?_)), fun ho hs hm => ok ho _ (hn.trans (if_pos ⟨hs, hm⟩)), fun ho => ?_⟩
      · rintro ⟨hs, hm⟩
        rcases hno with hno | hno
        · exact hno hs
        · rw [hm] at hno
          cases hno
      · exact exec_served_of_refuse (req := .channelDisable) h
          (by simp [ownerOf, channelDisableOwner, hj, channel?_val, ho])
    · exact exec_served_of_refuse (req := .channelDisable) h (by simp [ownerOf, channelDisableOwner, channel?_large hl])

/-! ## Port requests (R52, R53) -/

theorem FieldPort.listens_iff {x : FieldPort} : x.listens = true ↔ x.state = .up ∨ x.state = .down := by
  simp [FieldPort.listens]

theorem FieldPort.not_listens_iff {x : FieldPort} : x.listens = false ↔ x.state = .disabled ∨ x.state = .failed := by
  cases hx : x.state <;> simp [FieldPort.listens, hx]

/-- Settles O21: the two answers of each owner, and the port that none names. -/
theorem portEnableDisable : Obligations.PortEnableDisable := by
  constructor
  · intro s c tag payload h
    refine ⟨fun p hp => ⟨fun hs => ?_, fun hs => ?_⟩, fun hl => ?_⟩
    · refine exec_served_of_owner (req := .portEnable) h ?_
      simp only [ownerOf, portEnableOwner, hp, fport?_val, State.popRequest_port, FieldPort.not_listens_iff.2 hs]
      cases c <;> rfl
    · exact exec_served_of_refuse (req := .portEnable) h
        (by simp [ownerOf, portEnableOwner, hp, fport?_val, FieldPort.listens_iff.2 hs])
    · exact exec_served_of_refuse (req := .portEnable) h (by simp [ownerOf, portEnableOwner, fport?_large hl])
  · intro s c tag payload h
    refine ⟨fun p hp => ⟨fun hs => ?_, fun hs => ?_⟩, fun hl => ?_⟩
    · refine exec_served_of_owner (req := .portDisable) h ?_
      simp only [ownerOf, portDisableOwner, hp, fport?_val, State.popRequest_port, hs, if_false]
      cases c <;> rfl
    · exact exec_served_of_refuse (req := .portDisable) h (by simp [ownerOf, portDisableOwner, hp, fport?_val, hs])
    · exact exec_served_of_refuse (req := .portDisable) h (by simp [ownerOf, portDisableOwner, fport?_large hl])

/-! ## Hub map requests (R55, R56) -/

theorem State.runInUse_eq_true_iff {s : State} {e : HubEntry} :
    s.runInUse e = true ↔ ∃ j : Fin 256, e.base ≤ j.val ∧ j.val < e.base + e.count ∧ (s.chan j).state ≠ .off := by
  simp [State.runInUse, enumFin_eq_map, State.chan, and_assoc]

theorem State.popRequest_runTaken (s : State) (c : CPort) (g : Fin 16) (base count : Nat) :
    (s.popRequest c).runTaken g base count = s.runTaken g base count := by
  simp [State.runTaken]

theorem State.popRequest_runInUse (s : State) (c : CPort) (e : HubEntry) :
    (s.popRequest c).runInUse e = s.runInUse e := by
  simp [State.runInUse]

/-- HUB MAP SET of an entry that some hub id names, on the state after the request has left its queue. -/
theorem hubMapSetOwner_eq {b : List Byte} {g : Fin 16} (h : field b 0 1 = g.val) (s : State) (c : CPort) :
    hubMapSetOwner b (s.popRequest c) =
      if hubRangeOk (field b 1 1) (field b 2 2) (field b 4 2) = false then refuse .range (s.popRequest c)
      else if s.runTaken g (field b 2 2) (field b 4 2) = true then refuse .range (s.popRequest c)
      else if s.array = .running ∧ (s.hub g).valid = true ∧ s.runInUse (s.hub g) = true then refuse .state (s.popRequest c)
      else ⟨.ok, [], (s.popRequest c).setHub g ⟨true, field b 1 1, field b 2 2, field b 4 2, none, none⟩⟩ := by
  simp [hubMapSetOwner, h, hub?_val, State.popRequest_runTaken, State.popRequest_runInUse]

theorem hubMapClearOwner_eq {b : List Byte} {g : Fin 16} (h : field b 0 1 = g.val) (s : State) (c : CPort) :
    hubMapClearOwner b (s.popRequest c) =
      if (s.hub g).valid = false then refuse .nothing (s.popRequest c)
      else if s.array = .running ∧ s.runInUse (s.hub g) = true then refuse .state (s.popRequest c)
      else ⟨.ok, [], (s.popRequest c).setHub g { s.hub g with valid := false, expSeq := none, expAsn := none }⟩ := by
  simp [hubMapClearOwner, h, hub?_val, State.popRequest_runInUse, HubEntry.forget]

/-- Settles O22: the owners' checks in their order, each spelled as the statement spells it. -/
theorem hubMapSetClear : Obligations.HubMapSetClear := by
  constructor
  · rintro s c tag payload port base count h rfl rfl rfl
    refine ⟨fun g hg hp h1 h64 hin => ?_, fun hbad => ?_⟩
    · have ho := hubMapSetOwner_eq hg s c
      rw [if_neg (by rw [Bool.not_eq_false, hubRangeOk_iff]; omega)] at ho
      refine ⟨fun hapart => ?_, fun ⟨k, hk, hv, hsh⟩ => ?_⟩
      · have ht : ¬s.runTaken g (field payload 2 2) (field payload 4 2) = true := by
          rw [State.runTaken_eq_true_iff]
          rintro ⟨k, hk, hv, hs⟩
          have := hapart k hk hv
          rw [HubEntry.shares_iff] at hs
          omega
        rw [if_neg ht] at ho
        refine ⟨fun hfree => ?_, fun ha hv hu => ?_⟩
        · exact exec_served_of_owner (req := .hubMapSet) h
            (ho.trans (if_neg fun ⟨ha, hv, hu⟩ => hfree ⟨ha, hv, State.runInUse_eq_true_iff.1 hu⟩))
        · exact exec_served_of_refuse (req := .hubMapSet) h
            (ho.trans (if_pos ⟨ha, hv, State.runInUse_eq_true_iff.2 hu⟩))
      · have ht : s.runTaken g (field payload 2 2) (field payload 4 2) = true :=
          State.runTaken_eq_true_iff.2 ⟨k, hk, hv, HubEntry.shares_iff.2 hsh⟩
        exact exec_served_of_refuse (req := .hubMapSet) h (ho.trans (if_pos ht))
    · by_cases hid : 15 < field payload 0 1
      · exact exec_served_of_refuse (req := .hubMapSet) h (by simp [ownerOf, hubMapSetOwner, hub?_large hid])
      · have ho := hubMapSetOwner_eq (g := ⟨field payload 0 1, by omega⟩) rfl s c
        refine exec_served_of_refuse (req := .hubMapSet) h (ho.trans (if_pos ?_))
        rw [← Bool.not_eq_true, hubRangeOk_iff]
        omega
  · intro s c tag payload h
    refine ⟨fun g hg => ?_, fun hid => ?_⟩
    · have ho := hubMapClearOwner_eq hg s c
      refine ⟨fun hv hfree => ?_, fun hv ha hu => ?_, fun hv => ?_⟩
      · rw [if_neg (by simp [hv]), if_neg ?_] at ho
        · exact exec_served_of_owner (req := .hubMapClear) h ho
        · rintro ⟨ha, hu⟩
          obtain ⟨j, h1, h2, h3⟩ := State.runInUse_eq_true_iff.1 hu
          exact hfree.elim (fun hn => hn ha) fun hall => h3 (hall j h1 h2)
      · rw [if_neg (by simp [hv]), if_pos ⟨ha, State.runInUse_eq_true_iff.2 hu⟩] at ho
        exact exec_served_of_refuse (req := .hubMapClear) h ho
      · exact exec_served_of_refuse (req := .hubMapClear) h (ho.trans (if_pos hv))
    · exact exec_served_of_refuse (req := .hubMapClear) h (by simp [ownerOf, hubMapClearOwner, hub?_large hid])

/-! ## The requests that read (R41, R57, R84, R146, R163) -/

theorem State.zone_rule (s : State) (i : Fin 8) : s.zone i.val = vget s.zones i := dif_pos i.isLt

theorem State.zone_default (s : State) : s.zone 8 = s.params.defaultZone := dif_neg (by omega)

theorem Channel.queryBytes_eq (x : Channel) : x.queryBytes =
    (bytesOf 1 x.cfg.weight ++ bytesOf 1 x.cfg.polarity.code ++ bytesOf 3 x.cfg.clip ++ bytesOf 3 x.cfg.noise ++
      bytesOf 3 x.cfg.quiet ++ flagByte x.cfg.autoMute) ++ bytesOf 1 x.weightInForce ++ bytesOf 1 x.state.code ++
      alarmByte x.alarms ++ (flagByte x.noisyHold.established ++ bytesOf 2 x.noisyHold.run) ++
      (flagByte x.quietHold.established ++ bytesOf 2 x.quietHold.run) ++ flagByte x.clipActive ++
      (match x.cond with
        | some r =>
          presentOf 4 r.sta ++ presentOf 4 r.lta ++ bytesOf 1 r.prevC ++ sixOf r.completeThrough ++ sixOf r.oldestHeld
        | none => presentOf 4 none ++ presentOf 4 none ++ bytesOf 1 0 ++ sixOf none ++ sixOf none) := by
  cases h : x.cond <;>
    simp [Channel.queryBytes, ChanConfig.bytes, Hold.bytes, Channel.conditioningBytes, Channel.completeThrough,
      Channel.oldestHeld, h]

/-- Settles O23: each owner reads its record; the spelling and the codes are read off. -/
theorem recordsRead : Obligations.RecordsRead := by
  refine ⟨?reads, ?query, fun _ => rfl, ⟨rfl, rfl, rfl, rfl, rfl, rfl, rfl, rfl, rfl, rfl, rfl, rfl, rfl, rfl⟩,
    rfl, rfl, rfl, rfl, rfl, fun _ _ _ => rfl⟩
  case reads =>
    intro s c tag payload
    refine ⟨fun h => ⟨fun g hg => ?_, fun hl => ?_⟩, fun h => ?_, fun h => ⟨fun z hz => ?_, fun hz => ?_, fun hl => ?_⟩,
      fun h => ?_⟩
    · exact exec_served_of_owner (req := .hubMapGet) h
        (by simp [ownerOf, hubMapGetOwner, hg, hub?_val, HubEntry.bytes])
    · exact exec_served_of_refuse (req := .hubMapGet) h (by simp [ownerOf, hubMapGetOwner, hub?_large hl])
    · exact exec_served_of_owner (req := .gridGet) h (by simp [ownerOf, gridGetOwner, Grid.bytes, Grid.voxels])
    · have hz8 : ¬8 < z.val := by omega
      exact exec_served_of_owner (req := .zoneGet) h
        (by simp [ownerOf, zoneGetOwner, hz, hz8, State.zone_rule])
    · refine exec_served_of_owner (req := .zoneGet) h ?_
      simp only [ownerOf, zoneGetOwner, hz, State.zone_default, State.popRequest_params]
      rfl
    · exact exec_served_of_refuse (req := .zoneGet) h (by simp [ownerOf, zoneGetOwner, hl])
    · refine exec_served_of_owner (req := .alertStatus) h ?_
      simp only [ownerOf, alertStatusOwner, State.popRequest_alert, Alert.bytes]
      cases s.alert.dwell <;> rfl
  case query =>
    intro s c tag payload h
    refine ⟨?_, fun hl => ?_⟩
    · rintro j x hj rfl
      refine exec_served_of_owner (req := .channelQuery) h ?_
      rewrite [ownerOf, channelQueryOwner, hj, channel?_val]
      dsimp only
      rewrite [State.popRequest_chan, Channel.queryBytes_eq]
      cases (s.chan j).cond <;> rfl
    · exact exec_served_of_refuse (req := .channelQuery) h (by simp [ownerOf, channelQueryOwner, channel?_large hl])

end Sys2Proof.Machine
end

section
/-!
PROOFS. The field error log (04): one occurrence in the log and in the state, the requests of the log, and the frames and
the link that are logged (03, R46, R47).
-/

namespace Sys2Proof.Machine

/-! ## Error kinds and their sets (12.1) -/

theorem ErrKind.mem_all (k : ErrKind) : k ∈ ErrKind.all := by
  cases k <;> decide

/-- A kind is found again at its place in the list of all. -/
theorem ErrKind.all_place (k : ErrKind) : ErrKind.all[k.place.val]? = some k := by
  cases k <;> rfl

theorem ErrKind.place_injective {a b : ErrKind} (h : a.place = b.place) : a = b :=
  Option.some.inj (by rw [← a.all_place, ← b.all_place, h])

theorem errorSet?_eq_some_iff {v : Nat} {ks : List ErrKind} :
    errorSet? v = some ks ↔ v < 1024 ∧ ks = ErrKind.all.filter fun k => v.testBit k.place.val := by
  unfold errorSet? membersOf
  split
  next h => exact ⟨fun he => ⟨h, (Option.some.inj he).symm⟩, fun he => congrArg some he.2.symm⟩
  next h => exact ⟨fun he => (nomatch he), fun he => absurd he.1 h⟩

theorem errorSet?_large {v : Nat} (h : 1023 < v) : errorSet? v = none := if_neg (by omega)

theorem errorSet?_zero : errorSet? 0 = some [] := by decide

theorem errorSetOf_bits (ks : List ErrKind) :
    ∃ u, errorSetOf ks = bytesOf 2 u ∧ u < 1024 ∧ ∀ k : ErrKind, u.testBit k.place.val = true ↔ k ∈ ks := by
  refine ⟨_, rfl, maskOf_lt _ ks 10 (fun k => k.place.isLt), fun k => ?_⟩
  rw [testBit_maskOf, List.any_eq_true]
  constructor
  · rintro ⟨a, ha, he⟩
    exact ErrKind.place_injective (Fin.ext (by simpa using he)) ▸ ha
  · exact fun hk => ⟨k, hk, by simp⟩

/-! ## Kind records -/

@[simp] theorem ErrorLog.kind_setKind_self (l : ErrorLog) (k : ErrKind) (r : KindRec) : (l.setKind k r).kind k = r :=
  vget_vset_self _ _ _

theorem ErrorLog.kind_setKind_ne (l : ErrorLog) {k k' : ErrKind} (r : KindRec) (h : k' ≠ k) :
    (l.setKind k r).kind k' = l.kind k' :=
  vget_vset_ne _ _ fun he => h (ErrKind.place_injective he).symm

/-- Records changed one after another by changes that the second time change nothing: each named kind is changed once. -/
theorem ErrorLog.foldl_setKind (f : ErrKind → KindRec → KindRec) (hf : ∀ k r, f k (f k r) = f k r) (ks : List ErrKind)
    (l : ErrorLog) :
    (∀ k, (ks.foldl (fun l k => l.setKind k (f k (l.kind k))) l).kind k = if k ∈ ks then f k (l.kind k) else l.kind k) ∧
    (ks.foldl (fun l k => l.setKind k (f k (l.kind k))) l).first = l.first ∧
    (ks.foldl (fun l k => l.setKind k (f k (l.kind k))) l).header = l.header := by
  induction ks generalizing l with
  | nil => simp
  | cons a ks ih =>
    obtain ⟨hk, hfirst, hheader⟩ := ih (l.setKind a (f a (l.kind a)))
    refine ⟨fun k => ?_, hfirst, hheader⟩
    rw [List.foldl_cons, hk]
    by_cases ha : k = a
    · subst ha
      simp [hf]
    · simp [ErrorLog.kind_setKind_ne _ _ ha, ha]

theorem ErrorLog.configure_spec (l : ErrorLog) (ks : List ErrKind) (sev : Option Severity) (mask : Option Bool) :
    (∀ k, (l.configure ks sev mask).kind k = if k ∈ ks then
      { l.kind k with severity := sev.getD (l.kind k).severity, masked := mask.getD (l.kind k).masked } else l.kind k) ∧
    (l.configure ks sev mask).first = l.first ∧ (l.configure ks sev mask).header = l.header :=
  ErrorLog.foldl_setKind (fun _ r => { r with severity := sev.getD r.severity, masked := mask.getD r.masked })
    (fun _ r => by cases sev <;> cases mask <;> rfl) ks l

theorem FieldPort.clearedLog_spec (x : FieldPort) (ks : List ErrKind) (first : Bool) :
    (∀ k, (x.clearedLog ks first).kind k = if k ∈ ks then (x.log.kind k).cleared (x.keepsFlag k) else x.log.kind k) ∧
    (x.clearedLog ks first).first = (if first then none else x.log.first) ∧
    (x.clearedLog ks first).header = (if first then none else x.log.header) := by
  obtain ⟨hk, hfirst, hheader⟩ := ErrorLog.foldl_setKind (fun k r => r.cleared (x.keepsFlag k))
    (fun k r => by simp [KindRec.cleared]) ks x.log
  cases first with
  | true => exact ⟨hk, rfl, rfl⟩
  | false => exact ⟨hk, hfirst, hheader⟩

/-! ## One occurrence in the log (R70, R74) -/

@[simp] theorem ErrorLog.kind_capture (l : ErrorLog) (k k' : ErrKind) (h : HeaderLog) :
    (l.capture k h).kind k' = l.kind k' := by
  unfold ErrorLog.capture
  split <;> rfl

theorem ErrorLog.kind_occur_self (l : ErrorLog) (k : ErrKind) (h : HeaderLog) :
    (l.occur k h).kind k = (l.kind k).occur := by
  simp [ErrorLog.occur]

theorem ErrorLog.kind_occur_ne (l : ErrorLog) {k k' : ErrKind} (h : HeaderLog) (hne : k' ≠ k) :
    (l.occur k h).kind k' = l.kind k' := by
  simp [ErrorLog.occur, ErrorLog.kind_setKind_ne _ _ hne]

/-- An occurrence fills the first-error record of an unmasked uncorrectable kind that finds it empty. -/
theorem ErrorLog.occur_eq (l : ErrorLog) (k : ErrKind) (h : HeaderLog) :
    l.occur k h =
      if (l.kind k).masked = true ∨ (l.kind k).severity = .advisory ∨ l.first ≠ none then l.setKind k (l.kind k).occur
      else { l.setKind k (l.kind k).occur with first := some k, header := some h } := by
  have hset (r : KindRec) : (l.setKind k r).first = l.first := rfl
  simp only [ErrorLog.occur, ErrorLog.capture, ErrorLog.kind_setKind_self, hset, KindRec.occur, Bool.or_eq_true,
    beq_iff_eq, Option.isSome_iff_ne_none, or_assoc]

/-! ## One occurrence in the state (R77) -/

theorem vset_vset {α : Type} {n : Nat} (v : Vector α n) (i : Fin n) (x y : α) : vset (vset v i x) i y = vset v i y := by
  simp [vset]

theorem State.setPort_setPort (s : State) (p : FPort) (x y : FieldPort) :
    (s.setPort p x).setPort p y = s.setPort p y := by
  simp [State.setPort, vset_vset]

/-- The state after the log and the notice of an occurrence, ahead of what a FATAL kind does to the port. -/
def State.loggedError (s : State) (p : FPort) (k : ErrKind) (h : HeaderLog) : State :=
  if ((s.port p).log.kind k).masked = false ∧ ((s.port p).log.kind k).flag = false then
    (s.setPort p { s.port p with log := (s.port p).log.occur k h }).raise .survey .fieldError
  else s.setPort p { s.port p with log := (s.port p).log.occur k h }

theorem State.logError_eq (s : State) (p : FPort) (k : ErrKind) (h : HeaderLog) :
    s.logError p k h = if ((s.port p).log.kind k).severity = .fatal then (s.loggedError p k h).stopPort p .failed
      else s.loggedError p k h := by
  simp [State.logError, State.loggedError]

theorem State.loggedError_port (s : State) (p : FPort) (k : ErrKind) (h : HeaderLog) :
    (s.loggedError p k h).port p = { s.port p with log := (s.port p).log.occur k h } := by
  unfold State.loggedError
  split <;> simp

theorem State.loggedError_sched (s : State) (p : FPort) (k : ErrKind) (h : HeaderLog) :
    (s.loggedError p k h).sched = s.sched := by
  unfold State.loggedError
  split <;> simp

theorem State.logError_port_of_not_fatal {s : State} {p : FPort} {k : ErrKind} (h : HeaderLog)
    (hf : ((s.port p).log.kind k).severity ≠ .fatal) :
    (s.logError p k h).port p = { s.port p with log := (s.port p).log.occur k h } := by
  rw [State.logError_eq, if_neg hf, State.loggedError_port]

theorem State.logError_port_of_fatal {s : State} {p : FPort} {k : ErrKind} (h : HeaderLog)
    (hf : ((s.port p).log.kind k).severity = .fatal) :
    (s.logError p k h).port p = { s.port p with log := (s.port p).log.occur k h }.stopped .failed := by
  rw [State.logError_eq, if_pos hf, State.stopPort, State.loggedError_port, State.withdraw_port, State.setPort_port_self]

/-- Settles O28: the log by its captures, the state by the severity, the header read off. -/
theorem errorOccurrence : Obligations.ErrorOccurrence := by
  refine ⟨?log, ?state, ?header⟩
  case log =>
    intro l k h
    refine ⟨ErrorLog.kind_occur_self l k h, fun k' => ErrorLog.kind_occur_ne l h, fun hm hs hn => ?_, fun hor => ?_⟩
    · rw [ErrorLog.occur_eq, if_neg (by simp [hm, hs, hn])]
      exact ⟨rfl, rfl⟩
    · rw [ErrorLog.occur_eq, if_pos hor]
      exact ⟨rfl, rfl⟩
  case state =>
    rintro s p k h r t u rfl rfl rfl
    have hu := State.logError_eq s p k h
    refine ⟨fun hf => hu.trans (if_neg hf), fun hf => ?_⟩
    rw [hu, if_pos hf, State.stopPort, State.loggedError_port, State.withdraw, State.setPort_sched,
      State.loggedError_sched]
    rfl
  case header =>
    rintro body len f rfl
    exact ⟨rfl, rfl⟩

/-! ## The requests of the log (R79 to R81) -/

theorem severityAction?_large {v : Nat} (h : 3 < v) : severityAction? v = none := by
  obtain ⟨n, rfl⟩ := Nat.exists_eq_add_of_le' h
  rfl

theorem maskAction?_large {v : Nat} (h : 2 < v) : maskAction? v = none := by
  obtain ⟨n, rfl⟩ := Nat.exists_eq_add_of_le' h
  rfl

theorem errorConfigOwner_of_some {b : List Byte} {t : State} {p : FPort} {ks : List ErrKind} {sev : Option Severity}
    {mask : Option Bool} (hp : field b 0 1 = p.val) (hks : errorSet? (field b 1 2) = some ks) (hne : ks ≠ [])
    (hsev : severityAction? (field b 3 1) = some sev) (hmask : maskAction? (field b 4 1) = some mask) :
    errorConfigOwner b t = ⟨.ok, ((t.port p).log.configure ks sev mask).settingBytes,
      t.setPort p { t.port p with log := (t.port p).log.configure ks sev mask }⟩ := by
  cases ks with
  | nil => exact absurd rfl hne
  | cons k ks => simp [errorConfigOwner, hp, fport?_val, hks, hsev, hmask]

theorem errorConfigOwner_of_range {b : List Byte} {t : State} (h : 3 < field b 0 1 ∨ field b 1 2 = 0 ∨ 1023 < field b 1 2 ∨
    3 < field b 3 1 ∨ 2 < field b 4 1) : errorConfigOwner b t = refuse .range t := by
  unfold errorConfigOwner
  split
  next hp hks hsev hmask =>
    rcases h with h | h | h | h | h
    · rw [fport?_large h] at hp
      cases hp
    · rw [h, errorSet?_zero] at hks
      cases hks
    · rw [errorSet?_large h] at hks
      cases hks
    · rw [severityAction?_large h] at hsev
      cases hsev
    · rw [maskAction?_large h] at hmask
      cases hmask
  next => rfl

/-- The reply and the state of ERROR CLEAR of the named kinds on a port. -/
theorem errorClearOwner_of_some {b : List Byte} {t : State} {p : FPort} {ks : List ErrKind} {first : Bool}
    (hp : field b 0 1 = p.val) (hks : errorSet? (field b 1 2) = some ks) (hne : ks ≠ []) (hfirst : field b 3 1 = first.toNat) :
    errorClearOwner b t = ⟨if (t.port p).log.nothingToClear ks first then .nothing else .ok,
      errorSetOf (ks.filter (t.port p).keepsFlag) ++
        errorSetOf (ErrKind.all.filter fun k => (((t.port p).clearedLog ks first).kind k).flag),
      t.setPort p { t.port p with log := (t.port p).clearedLog ks first }⟩ := by
  cases ks with
  | nil => exact absurd rfl hne
  | cons k ks => simp only [errorClearOwner, hp, fport?_val, hks, hfirst, yesNo?_toNat]

theorem errorClearOwner_of_range {b : List Byte} {t : State} (h : 3 < field b 0 1 ∨ field b 1 2 = 0 ∨ 1023 < field b 1 2 ∨
    1 < field b 3 1) : errorClearOwner b t = refuse .range t := by
  unfold errorClearOwner
  split
  next hp hks hfirst =>
    rcases h with h | h | h | h
    · rw [fport?_large h] at hp
      cases hp
    · rw [h, errorSet?_zero] at hks
      cases hks
    · rw [errorSet?_large h] at hks
      cases hks
    · rw [yesNo?_large h] at hfirst
      cases hfirst
  next => rfl

theorem ErrorLog.nothingToClear_iff {l : ErrorLog} {ks : List ErrKind} {first : Bool} :
    l.nothingToClear ks first = true ↔
      (∀ k ∈ ks, (l.kind k).flag = false ∧ (l.kind k).count = 0) ∧ (first = false ∨ l.first = none) := by
  simp [ErrorLog.nothingToClear]

/-- Settles O30: the owner of each request refuses what names no port, no kind or no action. -/
theorem errorLogRangeRefusals : Obligations.ErrorLogRangeRefusals := by
  refine fun s c tag payload => ⟨fun h hl => ?_, fun h hl => ?_, fun h hl => ?_⟩
  · exact exec_served_of_refuse (req := .errorReport) h (by simp [ownerOf, errorReportOwner, fport?_large hl])
  · exact exec_served_of_refuse (req := .errorConfig) h (errorConfigOwner_of_range hl)
  · exact exec_served_of_refuse (req := .errorClear) h (errorClearOwner_of_range hl)

theorem ErrorLog.summaries_eq (l : ErrorLog) : l.summaries =
    bytesOf 1 ((ErrKind.all.any fun k => (l.kind k).flag && !(l.kind k).masked && (l.kind k).severity != .advisory).toNat +
      2 * (ErrKind.all.any fun k => (l.kind k).flag && !(l.kind k).masked && (l.kind k).severity == .advisory).toNat) := by
  simp only [ErrorLog.summaries, ErrorLog.uncorrectable, ErrorLog.correctable, ErrorLog.unmaskedSet, List.any_filter]

/-- Settles O29: the report is read off, the two changes of the log are their folds' sums. -/
theorem errorLogRequests : Obligations.ErrorLogRequests := by
  refine ⟨fun s c tag payload p hp => ⟨fun h => ?report, fun h ks sev mask hks hne hsev hmask => ?config,
    fun h ks first hks hne hfirst => ?clear⟩, fun v ks => ⟨errorSet?_eq_some_iff, errorSetOf_bits ks⟩, rfl, rfl⟩
  case report =>
    refine exec_served_of_owner (req := .errorReport) h ?_
    simp only [ownerOf, errorReportOwner, hp, fport?_val, State.popRequest_port, FieldPort.reportBytes,
      ErrorLog.summaries_eq]
    cases (s.port p).log.header <;> rfl
  case config =>
    obtain ⟨hk, hfirst, hheader⟩ := (s.port p).log.configure_spec ks sev mask
    refine ⟨(s.port p).log.configure ks sev mask, ?_, hk, hfirst, hheader⟩
    refine exec_served_of_owner (req := .errorConfig) h ?_
    simp only [ownerOf, errorConfigOwner_of_some hp hks hne hsev hmask, State.popRequest_port]
    rfl
  case clear =>
    obtain ⟨hk, hf, hheader⟩ := (s.port p).clearedLog_spec ks first
    refine ⟨(s.port p).clearedLog ks first, ?_, hk, hf, hheader⟩
    refine exec_served_of_owner (req := .errorClear) h ?_
    simp only [ownerOf, errorClearOwner_of_some hp hks hne hfirst, State.popRequest_port, ErrorLog.nothingToClear_iff]
    rfl

/-! ## The line of a field port (R46, R47) -/

theorem lineBytes_of_not_listens {s : State} {p : FPort} (h : (s.port p).state = .disabled ∨ (s.port p).state = .failed)
    (bs : List Byte) : lineBytes p bs s = s := by
  simp [lineBytes, FieldPort.not_listens_iff.2 h]

/-- A refused length on the line: FRAME_FORM, and the search goes on unless the kind is FATAL. -/
theorem lineBytes_length_refused {s : State} {p : FPort} {len : BitVec 16} (hst : (s.port p).state = .up ∨ (s.port p).state = .down)
    (hrx : (s.port p).rx = .receiving []) (hl : len.toNat = 0 ∨ 8192 < len.toNat) (hsync : len ≠ 0xB649#16) :
    lineBytes p (bytesOf 2 len.toNat) s =
      (s.logError p .frameForm ⟨some len.toNat, none, none, none, none, none, none⟩).keepReceiver p
        (.hunting (len.toNat % 256 == 0xB6)) := by
  rw [lineBytes, if_pos (FieldPort.listens_iff.2 hst), hrx, Config.fieldMaxBody, feed_length_refused hl]
  simp only [hsync, if_false, List.foldl_cons, List.foldl_nil, State.rxEvent, FieldPort.listens_iff.2 hst, if_true]
  rfl

/-- Settles O24: a frame start by the search's equation, a refused length by the severity of FRAME_FORM. -/
theorem fieldFraming : Obligations.FieldFraming := by
  refine ⟨fun s p hr => ⟨fun hst hrx => ?_, fun hst bytes len => ?_⟩, ?_, ?_⟩
  · have hfeed : feed 8192 (.hunting false) syncPair = ([.start], .receiving []) := feed_hunting_sync 8192 []
    rw [exec_out (f := lineBytes p syncPair) rfl hr, lineBytes, if_pos (FieldPort.listens_iff.2 hst), hrx,
      Config.fieldMaxBody, hfeed]
    have hstart : s.rxEvent p .start = s.setPort p (s.port p).frameStart := if_pos (FieldPort.listens_iff.2 hst)
    dsimp only
    rewrite [List.foldl_cons, List.foldl_nil, hstart, State.keepReceiver, State.setPort_port_self, if_pos (by rfl),
      State.setPort_setPort]
    rfl
  · rw [exec_out (f := lineBytes p syncPair) rfl hr, exec_out (f := lineBytes p bytes) rfl hr,
      exec_out (f := lineBytes p (bytesOf 2 len.toNat)) rfl hr]
    simp [lineBytes_of_not_listens hst]
  · intro s p len hr hst hrx hl hsync hf
    refine ⟨_, rfl, ?_⟩
    rw [exec_out (f := lineBytes p (bytesOf 2 len.toNat)) rfl hr, lineBytes_length_refused hst hrx hl hsync,
      State.keepReceiver, if_pos ?_]
    rw [State.logError_port_of_not_fatal _ hf]
    exact FieldPort.listens_iff.2 hst
  · intro s p len hr hst hrx hl hsync hf
    have hport := State.logError_port_of_fatal ⟨some len.toNat, none, none, none, none, none, none⟩ hf
    refine ⟨_, rfl, ?_, by rw [hport]; rfl⟩
    rw [exec_out (f := lineBytes p (bytesOf 2 len.toNat)) rfl hr, lineBytes_length_refused hst hrx hl hsync,
      State.keepReceiver, if_neg (by rw [hport]; exact fun h => nomatch h)]

/-- Settles O26: the two branches of the link timer. -/
theorem linkDown : Obligations.LinkDown := by
  refine fun s p hr => ⟨fun hup => ?_, fun hne => ?_⟩
  · rw [exec_out (f := linkTimesOut p) rfl hr, linkTimesOut, if_pos hup]
    cases hrx : (s.port p).rx <;> rfl
  · rw [exec_out (f := linkTimesOut p) rfl hr, linkTimesOut, if_neg hne]

/-! ## Packet classes (R59, R117) -/

theorem slipTarget_spec (l : Nat) : l < 16 * slipTarget l + 696 ∧ ∀ f, l < 16 * f + 696 → slipTarget l ≤ f := by
  have hspan : Config.writeSpan = 696 := rfl
  unfold slipTarget
  rw [hspan]
  split <;> exact ⟨by omega, fun f hf => by omega⟩

/-- Settles O27: the comparison of the arrival sample number with the expected one, case by case. -/
theorem packetClasses : Obligations.PacketClasses := by
  refine ⟨fun g asn samples e => ⟨rfl, fun h => if_pos h, fun h1 h2 => ?_, fun h => ?_, fun h => ?_, ?_⟩, slipTarget_spec⟩
  · rw [classOf, if_neg (by omega), if_pos h1, if_pos h2]
  · rw [classOf, if_neg (by omega), if_pos (by omega), if_neg (by omega)]
  · rw [classOf, if_neg (by omega), if_neg (by omega)]
  · simp only [classOf]
    split_ifs <;> simp [PacketClass.dropped] <;> omega

end Sys2Proof.Machine
end

section
/-!
PROOFS. The voxel grid and the delay banks (05): what a bank holds, the grid and bank requests, and the validation that
passes with the swap it makes.
-/

namespace Sys2Proof.Machine

/-! ## The activation in flight (R90) -/

theorem BankCtl.inFlight_iff {b : BankCtl} : b.inFlight = true ↔ b.phase ≠ .none := by
  simp [BankCtl.inFlight]

theorem BankCtl.not_inFlight_iff {b : BankCtl} : b.inFlight = false ↔ b.phase = .none := by
  simp [BankCtl.inFlight]

theorem BankCtl.not_inFlight_of_empty {b : BankCtl} (h : b.standbyState = .empty) : b.inFlight = false := by
  simp [BankCtl.inFlight, BankCtl.phase, h]

theorem BankCtl.not_inFlight_of_loading {b : BankCtl} (h : b.standbyState = .loading) : b.inFlight = false := by
  simp [BankCtl.inFlight, BankCtl.phase, h]

theorem Grid.spanOk_iff {g : Grid} {v start n : Nat} :
    g.spanOk v start n = true ↔ v < g.voxels ∧ start ≤ 255 ∧ 1 ≤ n ∧ start + n ≤ 256 := by
  simp only [Grid.spanOk, decide_eq_true_eq]
  omega

theorem Grid.inRange_iff {g : Grid} : g.inRange = true ↔
    (1 ≤ g.nx ∧ g.nx ≤ 32) ∧ (1 ≤ g.ny ∧ g.ny ≤ 32) ∧ (1 ≤ g.nz ∧ g.nz ≤ 32) ∧ g.nx * g.ny * g.nz ≤ 4096 := by
  have hmost : Config.maxVoxels = 4096 := rfl
  rw [Grid.inRange, Grid.voxels, hmost]
  simp only [dimensionOk, Bool.and_eq_true, decide_eq_true_eq, and_assoc]

theorem OutcomeRec.isSwapped_iff {o : OutcomeRec} : o.isSwapped = true ↔ ∃ serial d, o = .swapped serial d := by
  cases o <;> simp [OutcomeRec.isSwapped]

/-! ## What a bank holds (R85, R92) -/

theorem Bank.delay?_eq_some_iff {b : Bank} (h : Store.wf b = true) {v j : Nat} {d : Byte} :
    b.delay? v j = some d ↔ (256 * v + j, d) ∈ b := by
  rw [Bank.delay?, bankKey, Nat.mul_comm]
  exact ⟨Store.mem_of_read, Store.read_of_mem h⟩

/-- The running maximum over the cells below a key bounds every one of them, and is one of them unless it stayed put. -/
theorem Bank.foldl_max_spec (n : Nat) (b : Bank) (m : Nat) :
    m ≤ b.foldl (fun m e => if e.1 < n then max m e.2.toNat else m) m ∧
    (∀ e ∈ b, e.1 < n → e.2.toNat ≤ b.foldl (fun m e => if e.1 < n then max m e.2.toNat else m) m) ∧
    (b.foldl (fun m e => if e.1 < n then max m e.2.toNat else m) m = m ∨
      ∃ e ∈ b, e.1 < n ∧ e.2.toNat = b.foldl (fun m e => if e.1 < n then max m e.2.toNat else m) m) := by
  induction b generalizing m with
  | nil => simp
  | cons a b ih =>
    obtain ⟨hle, hall, hor⟩ := ih (if a.1 < n then max m a.2.toNat else m)
    simp only [List.foldl_cons, List.mem_cons, forall_eq_or_imp, exists_eq_or_imp]
    by_cases ha : a.1 < n
    · simp only [if_pos ha] at hle hall hor ⊢
      refine ⟨(le_max_left _ _).trans hle, ⟨fun _ => (le_max_right _ _).trans hle, hall⟩, ?_⟩
      rcases hor with h | h
      · rw [h]
        rcases le_total m a.2.toNat with hm | hm
        · exact .inr (.inl ⟨ha, (max_eq_right hm).symm⟩)
        · exact .inl (max_eq_left hm)
      · exact .inr (.inr h)
    · simp only [if_neg ha] at hle hall hor ⊢
      exact ⟨hle, ⟨fun h => absurd h ha, hall⟩, hor.imp id .inr⟩

theorem Bank.delay_le_largest {b : Bank} (h : Store.wf b = true) {voxels v j : Nat} {d : Byte} (hv : v < voxels)
    (hj : j < 256) (hd : b.delay? v j = some d) : d.toNat ≤ b.largest voxels := by
  have hkey : 256 * v + j < voxels * 256 := by omega
  exact (Bank.foldl_max_spec _ b 0).2.1 _ ((Bank.delay?_eq_some_iff h).1 hd) hkey

theorem Bank.largest_attained {b : Bank} (h : Store.wf b = true) (voxels : Nat) :
    b.largest voxels = 0 ∨ ∃ v j d, v < voxels ∧ j < 256 ∧ b.delay? v j = some d ∧ d.toNat = b.largest voxels := by
  refine (Bank.foldl_max_spec (voxels * 256) b 0).2.2.imp id ?_
  rintro ⟨⟨key, d⟩, hmem, hkey, hd⟩
  have hkey' : key < voxels * 256 := hkey
  refine ⟨key / 256, key % 256, d, by omega, by omega, (Bank.delay?_eq_some_iff h).2 ?_, hd⟩
  rwa [Nat.div_add_mod]

/-- The keys of the cells of a voxel. -/
def Bank.keysOf (b : Bank) (v : Nat) : List Nat := (b.filter fun e => e.1 / 256 == v).map Prod.fst

theorem Bank.length_keysOf (b : Bank) (v : Nat) : (b.keysOf v).length = b.written v := by
  rw [Bank.keysOf, List.length_map, Bank.written, List.countP_eq_length_filter]

theorem Bank.nodup_keysOf {b : Bank} (h : Store.wf b = true) (v : Nat) : (b.keysOf v).Nodup := by
  have hrise := ((Store.keys_rise h).filter fun e => e.1 / 256 == v).map Prod.fst fun _ _ hlt => hlt
  exact hrise.imp fun hlt => Nat.ne_of_lt hlt

theorem Bank.mem_keysOf {b : Bank} (h : Store.wf b = true) {v key : Nat} :
    key ∈ b.keysOf v ↔ key / 256 = v ∧ b.delay? v (key % 256) ≠ none := by
  simp only [Bank.keysOf, List.mem_map, List.mem_filter, beq_iff_eq, Prod.exists, exists_and_right, exists_eq_right,
    Option.ne_none_iff_exists', Bank.delay?_eq_some_iff h]
  constructor
  · rintro ⟨⟨d, hd⟩, rfl⟩
    exact ⟨rfl, d, by rwa [Nat.div_add_mod]⟩
  · rintro ⟨rfl, d, hd⟩
    exact ⟨⟨d, by rwa [Nat.div_add_mod] at hd⟩, rfl⟩

/-- A voxel counts 256 cells exactly when every one of its 256 places is written. -/
theorem Bank.written_eq_iff {b : Bank} (h : Store.wf b = true) {v : Nat} :
    b.written v = 256 ↔ ∀ j, j < 256 → b.delay? v j ≠ none := by
  have hsub : b.keysOf v ⊆ List.range' (256 * v) 256 := fun key hkey => by
    have hv := ((Bank.mem_keysOf h).1 hkey).1
    rw [List.mem_range'_1]
    omega
  have hperm := List.subperm_of_subset (Bank.nodup_keysOf h v) hsub
  rw [← Bank.length_keysOf]
  constructor
  · intro hlen j hj
    have hp := hperm.perm_of_length_le (by rw [hlen, List.length_range'])
    have hmem := hp.mem_iff.2 (List.mem_range'_1.2 ⟨Nat.le_add_right (256 * v) j, by omega⟩)
    have hmod : (256 * v + j) % 256 = j := by omega
    simpa [hmod] using ((Bank.mem_keysOf h).1 hmem).2
  · intro hall
    have hsub' : List.range' (256 * v) 256 ⊆ b.keysOf v := fun key hkey => by
      rw [List.mem_range'_1] at hkey
      exact (Bank.mem_keysOf h).2 ⟨by omega, hall _ (by omega)⟩
    have h1 := hperm.length_le
    have h2 := (List.subperm_of_subset List.nodup_range' hsub').length_le
    rw [List.length_range'] at h1 h2
    exact le_antisymm h1 h2

/-! ## The grid and bank requests (R83, R87 to R91, R96) -/

/-- Settles O31: the checks of GRID SET in their order. -/
theorem gridSet : Obligations.GridSet := by
  rintro s c tag payload nx ny nz h rfl rfl rfl
  refine ⟨fun ha hp x1 x2 y1 y2 z1 z2 hvol => ?_, fun ha => ?_, fun ha hp => ?_, fun ha hp hbad => ?_⟩
  · have hin : (givenGrid payload).inRange = true := Grid.inRange_iff.2 ⟨⟨x1, x2⟩, ⟨y1, y2⟩, ⟨z1, z2⟩, hvol⟩
    refine exec_served_of_owner (req := .gridSet) h ?_
    simp only [ownerOf, gridSetOwner, State.popRequest_array, State.popRequest_banks, ha, BankCtl.not_inFlight_iff.2 hp, hin,
      if_false, if_true]
    rfl
  · exact exec_served_of_refuse (req := .gridSet) h (by simp [ownerOf, gridSetOwner, ha])
  · exact exec_served_of_refuse (req := .gridSet) h
      (by simp [ownerOf, gridSetOwner, ha, BankCtl.inFlight_iff.2 hp])
  · have hin : ¬(givenGrid payload).inRange = true := fun hin => by
      obtain ⟨hx, hy, hz, hvol⟩ := Grid.inRange_iff.1 hin
      simp only [givenGrid] at hx hy hz hvol
      omega
    exact exec_served_of_refuse (req := .gridSet) h
      (by simp [ownerOf, gridSetOwner, ha, BankCtl.not_inFlight_iff.2 hp, hin])

/-- The delays written are read back, and every other place keeps its entry. -/
theorem BankCtl.writeDelays_spec (b : BankCtl) {v start n : Nat} {ds : List Byte} (hlen : ds.length = n)
    (hspan : start + n ≤ 256) :
    (∀ i, i < n → (b.writeDelays v start ds).standby.delay? v (start + i) = ds[i]?) ∧
    (∀ v' j, j < 256 → (v' ≠ v ∨ j < start ∨ start + n ≤ j) →
      (b.writeDelays v start ds).standby.delay? v' j = b.standby.delay? v' j) := by
  simp only [BankCtl.writeDelays, Bank.delay?, bankKey, Config.numChannels, Store.read_writeRun, hlen]
  constructor
  · intro i hi
    rw [if_pos (by omega)]
    congr 1
    omega
  · intro v' j hj hor
    rw [if_neg (by omega)]

/-- Settles O32: the checks of BANK WRITE, and the run of the store that it writes. -/
theorem bankWrite : Obligations.BankWrite := by
  rintro s c tag payload v start n h rfl rfl rfl
  refine ⟨fun hv hstart hn hspan hp => ?_, fun hbad => ?_, fun hv hstart hn hspan hp => ?_⟩
  · have hok : s.banks.grid.spanOk _ _ _ = true := Grid.spanOk_iff.2 ⟨hv, hstart, hn, hspan⟩
    have hlen : (slice payload 6 (field payload 4 2)).length = field payload 4 2 := by
      have hl := h.passes.length
      simp only [Req.lengthOk, Bool.and_eq_true, beq_iff_eq] at hl
      simp only [slice, List.length_take, List.length_drop]
      omega
    obtain ⟨hread, hkeep⟩ := s.banks.writeDelays_spec (v := field payload 0 2) hlen hspan
    refine ⟨_, ?_, hread, hkeep⟩
    refine exec_served_of_owner (req := .bankWrite) h ?_
    simp [ownerOf, bankWriteOwner, hok, BankCtl.not_inFlight_iff.2 hp, BankCtl.writeDelays]
  · have hok : ¬s.banks.grid.spanOk (field payload 0 2) (field payload 2 2) (field payload 4 2) = true := by
      rw [Grid.spanOk_iff]
      omega
    exact exec_served_of_refuse (req := .bankWrite) h (by simp [ownerOf, bankWriteOwner, hok])
  · have hok : s.banks.grid.spanOk _ _ _ = true := Grid.spanOk_iff.2 ⟨hv, hstart, hn, hspan⟩
    exact exec_served_of_refuse (req := .bankWrite) h
      (by simp [ownerOf, bankWriteOwner, hok, BankCtl.inFlight_iff.2 hp])

/-- What refuses a BANK READ, by the role, the active bank and the span. -/
theorem BankCtl.readRefusal_eq (b : BankCtl) (role voxel start n : Nat) :
    b.readRefusal role voxel start n =
      if 2 ≤ role then some .range
      else if role = 0 ∧ b.hasActive = false then
        if b.grid.spanOk voxel start n = true then some .state
        else some (if Config.bankReadStateFirst then .state else .range)
      else if b.grid.spanOk voxel start n = true then none else some .range := by
  unfold BankCtl.readRefusal
  by_cases hr : role = 0 <;> cases b.hasActive <;> cases b.grid.spanOk voxel start n <;> simp [hr]

/-- Settles O33: the refusals by cases, the entries as they are spelled. -/
theorem bankRead : Obligations.BankRead := by
  refine ⟨?_, fun b v j => ?_⟩
  · rintro s c tag payload v start n h rfl rfl rfl
    have href := s.banks.readRefusal_eq (field payload 0 1) (field payload 1 2) (field payload 3 2) (field payload 5 2)
    refine ⟨fun hv hstart hn hspan => ?_, fun hrole => ?_, fun hbad => ?_⟩
    · rw [if_pos (Grid.spanOk_iff.2 ⟨hv, hstart, hn, hspan⟩), if_pos (Grid.spanOk_iff.2 ⟨hv, hstart, hn, hspan⟩)] at href
      refine ⟨fun hrole ha => ?_, fun hrole ha => ?_, fun hrole => ?_⟩ <;> rw [hrole] at href
      · exact exec_served_of_owner (req := .bankRead) h
          (by simp [ownerOf, bankReadOwner, href, hrole, ha, Bank.entryBytes])
      · exact exec_served_of_refuse (req := .bankRead) h (by simp [ownerOf, bankReadOwner, href, hrole, ha])
      · exact exec_served_of_owner (req := .bankRead) h (by simp [ownerOf, bankReadOwner, href, hrole, Bank.entryBytes])
    · rw [if_pos (by omega)] at href
      exact exec_served_of_refuse (req := .bankRead) h (by simp [ownerOf, bankReadOwner, href])
    · have hok : ¬s.banks.grid.spanOk (field payload 1 2) (field payload 3 2) (field payload 5 2) = true := by
        rw [Grid.spanOk_iff]
        omega
      rw [if_neg hok, if_neg hok] at href
      refine ⟨fun hor => ?_, fun hrole ha => ?_⟩
      · have hno : ¬(field payload 0 1 = 0 ∧ s.banks.hasActive = false) := fun ⟨hrole, ha⟩ => by
          rcases hor with hor | hor
          · omega
          · exact absurd (ha.symm.trans hor) (by decide)
        rw [if_neg hno, ite_self] at href
        exact exec_served_of_refuse (req := .bankRead) h (by simp [ownerOf, bankReadOwner, href])
      · rw [if_neg (by omega), if_pos ⟨hrole, ha⟩] at href
        cases hfirst : Config.bankReadStateFirst with
        | true =>
          exact .inl (exec_served_of_refuse (req := .bankRead) h (by simp [ownerOf, bankReadOwner, href, hfirst]))
        | false =>
          exact .inr (exec_served_of_refuse (req := .bankRead) h (by simp [ownerOf, bankReadOwner, href, hfirst]))
  · have hkey : bankKey v j = 256 * v + j := by rw [bankKey, Nat.mul_comm]
    refine ⟨congrArg _ hkey, ?_⟩
    rw [Bank.delay, Bank.delay?, hkey]
    cases Store.read b (256 * v + j) <;> rfl

/-- Settles O34: the branches of the three owners, in their order. -/
theorem bankActivation : Obligations.BankActivation := by
  refine fun s c tag payload => ⟨fun h => ⟨fun hp => ?_, fun he => ?_, fun hl => ?_⟩,
    fun h => ⟨fun hp => ?_, fun he => ?_, fun hl => ?_⟩, fun h => ⟨fun hp => ?_, fun hp hs => ?_, fun hp hs => ?_⟩⟩
  · exact exec_served_of_refuse (req := .bankClear) h (by simp [ownerOf, bankClearOwner, BankCtl.inFlight_iff.2 hp])
  · exact exec_served_of_refuse (req := .bankClear) h
      (by simp [ownerOf, bankClearOwner, BankCtl.not_inFlight_of_empty he, he])
  · exact exec_served_of_owner (req := .bankClear) h
      (by simp [ownerOf, bankClearOwner, BankCtl.not_inFlight_of_loading hl, hl])
  · exact exec_served_of_refuse (req := .bankActivate) h (by simp [ownerOf, bankActivateOwner, BankCtl.inFlight_iff.2 hp])
  · exact exec_served_of_refuse (req := .bankActivate) h
      (by simp [ownerOf, bankActivateOwner, BankCtl.not_inFlight_of_empty he, he])
  · exact exec_served_of_owner (req := .bankActivate) h
      (by simp [ownerOf, bankActivateOwner, BankCtl.not_inFlight_of_loading hl, hl])
  · refine exec_served_of_owner (req := .bankAbort) h ?_
    simp only [ownerOf, bankAbortOwner, State.endActivation, State.popRequest_banks, BankCtl.inFlight_iff.2 hp, if_true]
  · exact exec_served_of_refuse (req := .bankAbort) h
      (by simp [ownerOf, bankAbortOwner, BankCtl.not_inFlight_iff.2 hp, OutcomeRec.isSwapped_iff.2 hs])
  · have hno : s.banks.outcome.isSwapped = false := by
      rw [← Bool.not_eq_true, OutcomeRec.isSwapped_iff]
      exact fun ⟨serial, d, he⟩ => hs serial d he
    exact exec_served_of_refuse (req := .bankAbort) h
      (by simp [ownerOf, bankAbortOwner, BankCtl.not_inFlight_iff.2 hp, hno])

/-! ## The validation that passes (R92, R94, R95) -/

theorem Bank.firstIncomplete_eq_none_iff {b : Bank} {voxels : Nat} :
    b.firstIncomplete voxels = none ↔ ∀ v, v < voxels → b.written v = 256 := by
  simp [Bank.firstIncomplete]

/-- The state whose activation the scan has found complete, ahead of the swap. -/
def State.pendingSwap (s : State) : State :=
  { s with banks := { s.banks with
    standbyState := .pending, validated := s.banks.standby.largest s.banks.grid.voxels } }

theorem validationPasses_of_full {s : State} (hc : s.banks.standbyState = .checking)
    (hfull : ∀ v, v < s.banks.grid.voxels → s.banks.standby.written v = 256) :
    validationPasses s = if s.swapAllowed = true then s.pendingSwap.swapBanks.afterSwap else s.pendingSwap := by
  rw [validationPasses, if_pos ⟨hc, Bank.firstIncomplete_eq_none_iff.2 hfull⟩]
  rfl

theorem State.swapBanks_sched (s : State) : s.swapBanks.sched = s.sched := by simp [State.swapBanks]

theorem State.afterSwap_of_collecting {s : State} (h : s.sched.state = .collecting) : s.afterSwap = s.dueTest := by
  simp only [State.afterSwap, h]

theorem State.afterSwap_of_holding {s : State} (h : s.sched.state = .holding) : s.afterSwap = s.holdingTest := by
  simp only [State.afterSwap, h]

theorem State.afterSwap_of_unset {s : State} (h : s.sched.state = .unset) : s.afterSwap = s := by
  simp only [State.afterSwap, h]

/-- Settles O36: the swap by the array, the window and the trigger unit; the largest delay and the full voxel by the bank. -/
theorem validationPassed : Obligations.ValidationPassed := by
  refine ⟨?_, fun b voxels hw => ⟨fun v j d => Bank.delay_le_largest hw, Bank.largest_attained hw voxels⟩,
    fun b v hw => Bank.written_eq_iff hw⟩
  rintro s d serial t hr hc hfull rfl rfl rfl
  rw [exec_out (f := validationPasses) rfl hr, validationPasses_of_full hc hfull]
  have hsched : s.pendingSwap.swapBanks.sched.state = s.sched.state := congrArg Sched.state (State.swapBanks_sched _)
  refine ⟨fun ha hs => ?_, fun ha hw hi => ⟨fun hs => ?_, fun hs => ?_, fun hs => ?_⟩, fun ha hor => ?_⟩
  · rewrite [if_pos (by simp [State.swapAllowed, ha]), State.afterSwap_of_unset (hsched.trans hs)]
    rfl
  · rewrite [if_pos (by simp [State.swapAllowed, hw, hi]), State.afterSwap_of_unset (hsched.trans hs)]
    rfl
  · rewrite [if_pos (by simp [State.swapAllowed, hw, hi]), State.afterSwap_of_collecting (hsched.trans hs)]
    rfl
  · rewrite [if_pos (by simp [State.swapAllowed, hw, hi]), State.afterSwap_of_holding (hsched.trans hs)]
    rfl
  · have hno : ¬s.swapAllowed = true := by
      simp only [State.swapAllowed, ha]
      rcases hor with h | h <;> simp [h]
    rewrite [if_neg hno]
    rfl

end Sys2Proof.Machine
end

section
/-!
PROOFS. The detector journal (09): one equation for a written entry, what an offer comes to in each case, and the journal
requests.
-/

namespace Sys2Proof.Machine

/-! ## A written entry (R168, R173) -/

/-- The post count after an entry: started by a RED EVENT entry in HOLD_AFTER_RED, else counted down. -/
def Journal.postAfter (hold : Bool) (post : Nat) (b : EntryBody) (j : Journal) : Option Nat :=
  if (b.isRed && hold) = true then some post else j.post.map fun n => n - 1

/-- The journal with an entry added, before the end of the post count is considered. -/
def Journal.added (hold : Bool) (b : EntryBody) (j : Journal) : Journal :=
  { j with
    entries := (if j.entries.length < 512 then j.entries else j.entries.tail) ++ [⟨j.next, b⟩]
    next := if j.next < 4294967295 then j.next + 1 else j.next
    cause := if (b.isRed && hold) = true then some j.next else j.cause
    spent := decide (4294967295 ≤ j.next) }

/-- An entry written while the journal is not HELD: the hold comes with the end of the post count. -/
theorem Journal.write_eq {j : Journal} (hh : j.held = false) (hold : Bool) (post : Nat) (b : EntryBody) :
    j.write hold post b =
      ({ j.added hold b with
          held := decide (j.postAfter hold post b = some 0) && hold
          post := if j.postAfter hold post b = some 0 then none else j.postAfter hold post b },
        decide (j.postAfter hold post b = some 0) && hold) := by
  have hkept : (if Config.journalPlaces ≤ j.entries.length then j.entries.tail else j.entries) =
      if j.entries.length < 512 then j.entries else j.entries.tail := by
    rw [← ite_not]
    simp only [not_le]
    rfl
  have hspent : (!decide (j.next < Config.max32)) = decide (4294967295 ≤ j.next) := by
    rw [← decide_not]
    simp only [not_lt]
    rfl
  have hpost : ((j.append b).countPost (b.isRed && hold) post j.next).post = j.postAfter hold post b := rfl
  rw [Journal.write, Journal.endPost, hpost]
  by_cases hz : j.postAfter hold post b = some 0
  · simp only [hz, decide_true, Bool.true_and, if_true, Journal.countPost, Journal.append, Journal.added, hkept,
      hspent, hh, Bool.false_or]
    rfl
  · simp only [hz, decide_false, Bool.false_and, Journal.countPost, Journal.append, Journal.added, hkept, hspent,
      hh]
    rw [← hpost]
    rfl

/-! ## The three parts of an offer -/

theorem Journal.silent_eq_false {j : Journal} (hh : j.held = false) (hs : j.spent = false) : j.silent = false := by
  simp [Journal.silent, hh, hs]

theorem Journal.silent_of_or {j : Journal} (h : j.held = true ∨ j.spent = true) : j.silent = true := by
  simpa [Journal.silent] using h

theorem Journal.flush_of_quiet_zero {j : Journal} (h : j.quiet = 0) (hold : Bool) (post : Nat) :
    j.flush hold post = (j, false) := by
  simp [Journal.flush, h]

theorem Journal.flush_of_quiet {j : Journal} (h : j.quiet ≠ 0) (hs : j.silent = false) (hold : Bool) (post : Nat) :
    j.flush hold post = Journal.write hold post (.quiet j.quiet) { j with quiet := 0 } := by
  simp [Journal.flush, h, hs]

theorem Journal.flush_of_silent {j : Journal} (h : j.silent = true) (hold : Bool) (post : Nat) :
    j.flush hold post = (j, false) := by
  simp [Journal.flush, h]

theorem Journal.release_of_no_tally {j : Journal} (h : j.tally = 0) (hold : Bool) (post : Nat) :
    j.release hold post = (j, false) := by
  unfold Journal.release
  split <;> simp [h]

theorem Journal.release_of_silent {j : Journal} (h : j.silent = true) (hold : Bool) (post : Nat) :
    j.release hold post = (j, false) := by
  unfold Journal.release
  split <;> simp [h]

theorem Journal.release_of_tally {j : Journal} {k : RunKind} {n : Nat} (hr : j.run = some (k, n)) (ht : j.tally ≠ 0)
    (hs : j.silent = false) (hold : Bool) (post : Nat) :
    j.release hold post = Journal.write hold post (.repeated k j.tally) { j with tally := 0, run := none } := by
  simp [Journal.release, hr, ht, hs]

theorem Journal.offer_of_silent {j : Journal} (h : j.silent = true) (hold : Bool) (post : Nat) (b : EntryBody) :
    j.offer hold post b = (j, false) := by
  simp [Journal.offer, h]

/-- An offer neither discarded nor suppressed, whose flush and release leave the journal open. -/
theorem Journal.offer_of_parts {j j1 j2 : Journal} {hold h1 h2 : Bool} {post : Nat} {b : EntryBody} (hs : j.silent = false)
    (hb : j.suppresses b = false) (hf : j.flush hold post = (j1, h1)) (hr : j1.release hold post = (j2, h2))
    (ho : j2.silent = false) :
    j.offer hold post b =
      ((Journal.write hold post b { j2 with run := nextRun b j2.run }).1,
        h1 || h2 || (Journal.write hold post b { j2 with run := nextRun b j2.run }).2) := by
  simp [Journal.offer, hs, hb, hf, hr, ho]

/-- An offer whose flush ends the post count: the journal is HELD before the entry is written. -/
theorem Journal.offer_of_flush_ends {j j1 : Journal} {hold h1 : Bool} {post : Nat} {b : EntryBody} (hs : j.silent = false)
    (hb : j.suppresses b = false) (hf : j.flush hold post = (j1, h1)) (hs1 : j1.silent = true) :
    j.offer hold post b = (j1, h1) := by
  simp [Journal.offer, hs, hb, hf, hs1, Journal.release_of_silent hs1]

/-! ## Entries added while the journal has room -/

/-- The journal with entries added at the newest end, their serials running on. -/
def Journal.adds (bs : List EntryBody) (j : Journal) : Journal :=
  { j with entries := j.entries ++ (bs.zipIdx j.next).map (fun e => ⟨e.2, e.1⟩), next := j.next + bs.length }

theorem Journal.adds_adds (bs cs : List EntryBody) (j : Journal) : (j.adds bs).adds cs = j.adds (bs ++ cs) := by
  simp [Journal.adds, List.zipIdx_append, Nat.add_assoc]

/-- An open journal that has room for `n` more entries, no post count running. -/
structure Journal.Room (j : Journal) (n : Nat) : Prop where
  held : j.held = false
  spent : j.spent = false
  post : j.post = none
  serials : j.next + n ≤ 4294967295
  places : j.entries.length + n ≤ 512

theorem Journal.Room.adds {j : Journal} {n : Nat} (h : j.Room n) {bs : List EntryBody} (hn : bs.length ≤ n) :
    (j.adds bs).Room (n - bs.length) := by
  have hserials := h.serials
  have hplaces := h.places
  refine ⟨h.held, h.spent, h.post, ?_, ?_⟩
  · simp only [Journal.adds]
    omega
  · simp only [Journal.adds, List.length_append, List.length_map, List.length_zipIdx]
    omega

theorem Journal.Room.silent {j : Journal} {n : Nat} (h : j.Room n) : j.silent = false :=
  Journal.silent_eq_false h.held h.spent

theorem Journal.write_of_room {j : Journal} {n : Nat} (h : j.Room (n + 1)) (post : Nat) (b : EntryBody) :
    j.write false post b = (j.adds [b], false) := by
  have hserials := h.serials
  have hplaces := h.places
  rw [Journal.write_eq h.held]
  simp only [Journal.added, Journal.postAfter, h.post, Bool.and_false, Option.map_none]
  rw [if_pos (by omega), if_pos (by omega)]
  simp only [Journal.adds, h.held, h.spent, h.post]
  simp
  omega

/-- What the flush writes: the pending quiet count, if there is one. -/
def Journal.flushed (j : Journal) : List EntryBody := if j.quiet = 0 then [] else [.quiet j.quiet]

/-- What the release writes: the suppressed tally, if there is one. -/
def Journal.released (j : Journal) : List EntryBody :=
  match j.run with
  | some (k, _) => if j.tally = 0 then [] else [.repeated k j.tally]
  | none => []

theorem Journal.length_flushed (j : Journal) : j.flushed.length ≤ 1 := by
  unfold Journal.flushed
  split <;> simp

theorem Journal.length_released (j : Journal) : j.released.length ≤ 1 := by
  unfold Journal.released
  split
  · split <;> simp
  · simp

theorem Journal.flush_of_room {j : Journal} {n : Nat} (h : j.Room (n + 1)) (post : Nat) :
    j.flush false post = ({ j.adds j.flushed with quiet := 0 }, false) := by
  by_cases hq : j.quiet = 0
  · rw [Journal.flush_of_quiet_zero hq]
    simp [Journal.flushed, Journal.adds, hq]
    rw [← hq]
  · rw [Journal.flush_of_quiet hq h.silent,
      Journal.write_of_room (j := { j with quiet := 0 }) (n := n) ⟨h.held, h.spent, h.post, h.serials, h.places⟩]
    simp [Journal.flushed, Journal.adds, hq]

theorem Journal.release_of_room {j : Journal} {n : Nat} (h : j.Room (n + 1)) (hrun : j.run = none → j.tally = 0) (post : Nat) :
    j.release false post =
      ({ j.adds j.released with tally := 0, run := if j.tally = 0 then j.run else none }, false) := by
  by_cases ht : j.tally = 0
  · rw [Journal.release_of_no_tally ht]
    cases hr : j.run <;> simp [Journal.released, Journal.adds, ht, hr] <;> rw [← ht, ← hr]
  · cases hr : j.run with
    | none => exact absurd (hrun hr) ht
    | some kn =>
      obtain ⟨k, n'⟩ := kn
      rw [Journal.release_of_tally hr ht h.silent, Journal.write_of_room (j := { j with tally := 0, run := none }) (n := n)
        ⟨h.held, h.spent, h.post, h.serials, h.places⟩]
      simp [Journal.released, Journal.adds, ht, hr]

/-- An entry offered to a journal with room: behind the flushed count and the released tally. -/
theorem Journal.offer_of_room {j : Journal} (h : j.Room 3) {b : EntryBody} (hb : j.suppresses b = false)
    (hrun : j.run = none → j.tally = 0) (post : Nat) :
    j.offer false post b =
      ({ j.adds (j.flushed ++ j.released ++ [b]) with
          quiet := 0, tally := 0, run := nextRun b (if j.tally = 0 then j.run else none) }, false) := by
  have hl1 := j.length_flushed
  have hl2 := j.length_released
  have h1 : ({ j.adds j.flushed with quiet := 0 } : Journal).Room 2 := by
    have hr := h.adds (bs := j.flushed) (by omega)
    exact ⟨hr.held, hr.spent, hr.post, by have := hr.serials; dsimp only at this ⊢; omega,
      by have := hr.places; dsimp only at this ⊢; omega⟩
  have h2 : ({ (j.adds j.flushed).adds j.released with
      quiet := 0, tally := 0, run := if j.tally = 0 then j.run else none } : Journal).Room 1 := by
    have hr := h1.adds (bs := j.released) (by omega)
    exact ⟨hr.held, hr.spent, hr.post, by have := hr.serials; simp only [Journal.adds] at this ⊢; omega,
      by have := hr.places; simp only [Journal.adds] at this ⊢; omega⟩
  rw [Journal.offer_of_parts h.silent hb (Journal.flush_of_room (n := 2) h post)
    (Journal.release_of_room (n := 1) h1 hrun post) h2.silent, Journal.write_of_room (n := 0) ?_]
  · rewrite [← Journal.adds_adds, ← Journal.adds_adds]
    rfl
  · exact ⟨h2.held, h2.spent, h2.post, h2.serials, h2.places⟩

/-! ## Runs (R171) -/

/-- An entry of the kind of a run of length 2 is suppressed and counted. -/
theorem Journal.offer_of_suppresses {j : Journal} (hs : j.silent = false) {b : EntryBody} (hb : j.suppresses b = true)
    (hold : Bool) (post : Nat) :
    j.offer hold post b = ({ j with tally := if j.tally < 4294967295 then j.tally + 1 else j.tally }, false) := by
  simp only [Journal.offer, hs, hb, if_true]
  rfl

theorem Journal.suppresses_of_run {j : Journal} {b : EntryBody} {k : RunKind} (hk : b.runKind = some k)
    (hr : j.run = some (k, 2)) : j.suppresses b = true := by
  simp [Journal.suppresses, hk, hr]

/-! ## Quiet windows (R169) -/

theorem Journal.quietWindow_of_silent {j : Journal} (h : j.silent = true) (hold : Bool) (post : Nat) :
    j.quietWindow hold post = (j, false) := by
  simp [Journal.quietWindow, h]

theorem Journal.quietWindow_of_open {j : Journal} (h : j.silent = false) (hold : Bool) (post : Nat) :
    j.quietWindow hold post = if j.quiet + 1 = 255 then Journal.write hold post (.quiet 255) { j with quiet := 0 }
      else ({ j with quiet := j.quiet + 1 }, false) := by
  simp [Journal.quietWindow, h]

/-- A QUIET entry written by a journal with serials left: only a post count at its end makes it HELD. -/
theorem Journal.write_quiet {j : Journal} (hh : j.held = false) (hs : j.spent = false) (hn : j.next < 4294967295)
    (hold : Bool) (post n : Nat) (left : Option Nat) (hl : left = j.post.map fun n => n - 1) :
    Journal.write hold post (.quiet n) { j with quiet := 0 } =
      ({ j with
          entries := (if j.entries.length < 512 then j.entries else j.entries.tail) ++ [⟨j.next, .quiet n⟩]
          next := j.next + 1, quiet := 0
          held := decide (left = some 0) && hold, post := if left = some 0 then none else left },
        decide (left = some 0) && hold) := by
  subst hl
  rw [Journal.write_eq (j := { j with quiet := 0 }) hh]
  simp only [Journal.added, Journal.postAfter, EntryBody.isRed, Bool.false_and, if_pos hn, hs, decide_eq_false (not_le.2 hn)]
  rfl

/-- Settles O42: an offer to a journal with room, then the cases of a write, of a run and of a quiet window. -/
theorem journalOffer : Obligations.JournalOffer := by
  refine ⟨?room, ?plain, ?ends, ?suppressed, ?quiet, ?silent, fun s b r => ⟨?_, ?_⟩⟩
  case room =>
    intro j b post hh hs hp hn hl hb hrun q r hq hr
    have hq' : q = j.flushed := hq
    have hr' : r = j.released := by
      rw [hr]
      unfold Journal.released
      cases j.run <;> rfl
    subst hq' hr'
    rw [Journal.offer_of_room ⟨hh, hs, hp, by omega, hl⟩ hb hrun]
    refine ⟨rfl, ?_, rfl, rfl, rfl⟩
    simp only [Journal.adds, List.length_append, List.length_singleton]
    omega
  case plain =>
    intro j b hold red post kind left hh hs hq ht hb hred hkind hleft
    have hred' : red = (b.isRed && hold) := by
      rw [hred, Bool.and_comm]
      cases b with
      | event q l => cases l <;> rfl
      | _ => rfl
    have hkind' : kind = b.runKind := by
      cases b <;> exact hkind
    have hs' := Journal.silent_eq_false hh hs
    rw [Journal.offer_of_parts hs' hb (Journal.flush_of_quiet_zero hq hold post) (Journal.release_of_no_tally ht hold post) hs',
      Journal.write_eq (j := { j with run := nextRun b j.run }) hh, hkind', hleft, hred']
    simp only [Journal.added, Journal.postAfter, Bool.false_or, hq, ht, nextRun]
    cases b.runKind <;> cases j.run <;> rfl
  case ends =>
    intro j b post hh hs hq hp hb hn
    have hw := Journal.write_quiet hh hs hn true post j.quiet (some 0) (by rw [hp]; rfl)
    have hf := (Journal.flush_of_quiet (by omega) (Journal.silent_eq_false hh hs) true post).trans hw
    refine (Journal.offer_of_flush_ends (Journal.silent_eq_false hh hs) hb hf (Journal.silent_of_or (.inl rfl))).trans ?_
    simp
  case suppressed =>
    intro j b hold post k hh hs hr hb
    have hk : b.runKind = some k := by
      cases b <;> simp_all [EntryBody.runKind]
    have hsup := Journal.suppresses_of_run hk hr
    exact ⟨hsup, Journal.offer_of_suppresses (Journal.silent_eq_false hh hs) hsup hold post⟩
  case quiet =>
    intro j hold post hh hs
    rw [Journal.quietWindow_of_open (Journal.silent_eq_false hh hs)]
    refine ⟨fun hne => if_neg hne, fun he hp hn => ?_⟩
    rw [if_pos he, Journal.write_quiet hh hs hn hold post 255 none (by rw [hp]; rfl)]
    simp [hh, hp]
  case silent =>
    intro j b hold post hor
    have hs := Journal.silent_of_or hor
    exact ⟨Journal.offer_of_silent hs hold post b, Journal.quietWindow_of_silent hs hold post⟩
  · rintro rfl
    rfl
  · rintro rfl
    rfl

/-! ## The journal requests (R175 to R177) -/

theorem Journal.overwritten_eq (j : Journal) (q oldest : Nat)
    (h : oldest = match j.entries with
      | e :: _ => e.serial
      | [] => if j.spent then j.next + 1 else j.next) :
    j.overwritten q = decide (1 < oldest ∧ q < oldest) := by
  have hmax : j.overwritten q = decide (max q 1 < oldest) := by
    rewrite [h, Journal.overwritten]
    cases j.entries <;> rfl
  rw [hmax, decide_eq_decide, max_lt_iff]
  exact and_comm

theorem Journal.readBytes_eq {j : Journal} {q oldest : Nat} {es : List Entry} {run : List Byte}
    (hes : es = (j.entries.filter fun e => decide (q ≤ e.serial)).take 16)
    (hsome : ∀ k n, j.run = some (k, n) → run = bytesOf 1 k.code ++ bytesOf 1 n) (hnone : j.run = none → run = [0, 0])
    (hold : j.overwritten q = decide (1 < oldest ∧ q < oldest)) :
    j.readBytes q = bytesOf 1 ((decide (1 < oldest ∧ q < oldest)).toNat + 2 * j.held.toNat) ++ bytesOf 4 j.next ++
      bytesOf 2 (j.post.getD 0xFFFF) ++ run ++ bytesOf 4 j.tally ++ bytesOf 1 es.length ++ es.flatMap Entry.bytes := by
  have hread : j.readFrom q = es := hes.symm
  rw [Journal.readBytes, hold, hread]
  cases hr : j.run with
  | none => rw [hnone hr]; rfl
  | some kn => rw [hsome _ _ hr]

theorem EntryBody.length_bytes_le (b : EntryBody) : b.bytes.length ≤ 20 := by
  cases b <;> simp [EntryBody.bytes, flagByte]

/-- The 24 bytes of an entry: the serial, the content, and zeros. -/
theorem Entry.bytes_eq (e : Entry) :
    e.bytes = bytesOf 4 e.serial ++ e.body.bytes ++ List.replicate (20 - e.body.bytes.length) 0 ∧ e.bytes.length = 24 := by
  have hle := e.body.length_bytes_le
  have hsub : 24 - (bytesOf 4 e.serial ++ e.body.bytes).length = 20 - e.body.bytes.length := by
    rw [List.length_append, length_bytesOf]
    omega
  refine ⟨by rw [Entry.bytes, hsub], ?_⟩
  rw [Entry.bytes, hsub]
  simp only [List.length_append, length_bytesOf, List.length_replicate]
  omega

theorem State.flushQuiet_of_nothing {s : State}
    (h : s.journal.quiet = 0 ∨ s.journal.held = true ∨ s.journal.spent = true) : s.flushQuiet = s := by
  have hf : s.journal.flush s.holdMode (s.param .postCount) = (s.journal, false) := by
    rcases h with hq | hor
    · exact Journal.flush_of_quiet_zero hq _ _
    · exact Journal.flush_of_silent (Journal.silent_of_or hor) _ _
  rewrite [State.flushQuiet, hf]
  rfl

/-- Settles O43: the read through its flush, the release and the clear as they stand, the entry's bytes and the flush. -/
theorem journalRequests : Obligations.JournalRequests := by
  refine ⟨fun s c tag payload => ⟨fun h => ?read, fun h => ?release, fun h => ?clear⟩, ?bytes, fun s t left => ⟨?_, ?flush⟩⟩
  case read =>
    intro j es run oldest hj hes hsome hnone hold
    have hold' := j.overwritten_eq (field payload 0 4) oldest (hold.trans (by cases j.entries <;> rfl))
    refine exec_served_of_owner (req := .journalRead) h ?_
    have hread : j.readFrom (field payload 0 4) = es := hes.symm
    simp only [ownerOf, journalReadOwner, ← hj, hread, Journal.readBytes_eq hes hsome hnone hold', List.isEmpty_iff]
  case release =>
    refine ⟨fun hh => ?_, fun hh => ?_⟩
    · exact exec_served_of_owner (req := .journalRelease) h (by simp [ownerOf, journalReleaseOwner, hh])
    · exact exec_served_of_refuse (req := .journalRelease) h (by simp [ownerOf, journalReleaseOwner, hh])
  case clear =>
    exact exec_served_of_owner (req := .journalClear) h
      (by simp [ownerOf, journalClearOwner, Journal.cleared, Journal.powerOn])
  case bytes =>
    intro e content hc
    have hcontent : content = e.body.bytes := by
      rw [hc]
      cases e.body <;> rfl
    rw [hcontent]
    exact e.bytes_eq
  · exact State.flushQuiet_of_nothing
  case flush =>
    rintro hq hh hs hn hleft rfl
    have hw := Journal.write_quiet hh hs hn s.holdMode (s.param .postCount) s.journal.quiet left hleft
    have hd : (decide (left = some 0) && s.holdMode) = decide (left = some 0 ∧ s.param .journalMode = 1) := by
      rewrite [Bool.decide_and]
      rfl
    rw [State.flushQuiet, Journal.flush_of_quiet hq (Journal.silent_eq_false hh hs), hw, hd]
    simp only [State.setJournal, decide_eq_true_eq]

end Sys2Proof.Machine
end

section
/-!
PROOFS. The conditioning unit (01) and the channel supervisor (02): the averages, the ratio, what the completion of a tick
stores and reports, and what the supervisor makes of the report.
-/

namespace Sys2Proof.Machine

/-! ## Samples (R5 to R7) -/

/-- Whatever the tick in progress held, what is accumulated belongs to the tick of the sample. -/
theorem accumulate_tick (part : Option PartialTick) (k : Nat) (d : Int) (m : Nat) : (accumulate part k d m).tick = k := by
  cases part with
  | none => rfl
  | some p =>
    simp only [accumulate]
    split
    next h =>
      split
      · rfl
      · exact h
    next => rfl

theorem accumulate_of_tick {p : PartialTick} {k : Nat} (h : p.tick = k) (d : Int) (m : Nat) :
    accumulate (some p) k d m = if p.a < d.natAbs then ⟨k, d.natAbs, signOf d, max p.m m⟩ else { p with m := max p.m m } :=
  if_pos h

theorem CondRec.difference_first {r : CondRec} (h : r.last = none) (x : Int) : r.difference (some x) = 0 := by
  simp [CondRec.difference, h]

theorem CondRec.difference_next {r : CondRec} {l : Int} (h : r.last = some l) (x : Int) : r.difference (some x) = x - l := by
  simp [CondRec.difference, h]

/-! ## The averages (R9, R10, R13) -/

/-- A floored quotient by a positive divisor lies between its dividend and 0. -/
theorem floorDiv_between (x : Int) {d : Int} (hd : 1 ≤ d) : min x 0 ≤ x / d ∧ x / d ≤ max x 0 := by
  have hpos : 0 < d := by omega
  rcases le_total 0 x with hx | hx
  · exact ⟨(min_le_right _ _).trans (Int.ediv_nonneg hx hpos.le), (Int.ediv_le_self d hx).trans (le_max_left _ _)⟩
  · refine ⟨(min_le_left _ _).trans (Int.le_ediv_of_mul_le hpos (by nlinarith)), le_trans ?_ (le_max_right _ _)⟩
    exact Int.ediv_le_of_le_mul hpos (by simpa using hx)

/-- An average is the integer that R9 and R10 write down: it never falls below 0. -/
theorem average_cast (old a k : Nat) : ((average old a k : Nat) : Int) = old + (256 * (a : Int) - old) / 2 ^ k := by
  have hb := floorDiv_between (256 * (a : Int) - old) (one_le_pow₀ (by norm_num : (1 : Int) ≤ 2) (n := k))
  rw [average, Int.toNat_of_nonneg]
  omega

theorem average_between (old a k : Nat) : min old (256 * a) ≤ average old a k ∧ average old a k ≤ max old (256 * a) := by
  have hb := floorDiv_between (256 * (a : Int) - old) (one_le_pow₀ (by norm_num : (1 : Int) ≤ 2) (n := k))
  have hc := average_cast old a k
  omega

theorem CondRec.complete_sta {r : CondRec} {sta : Nat} (h : r.sta = some sta) (ps : Params) (cfg : ChanConfig)
    (p : PartialTick) : (r.complete ps cfg p).sta = some (average sta p.a (ps.get .ks)) := by
  simp [CondRec.complete, nextSta, h]

theorem CondRec.complete_lta {r : CondRec} {lta : Nat} (h : r.lta = some lta) (ps : Params) (cfg : ChanConfig)
    (p : PartialTick) : (r.complete ps cfg p).lta =
      some (if r.settleRemaining = 0 ∧ ps.get .freezeLevel ≤ r.prevC then lta else average lta p.a (ps.get .kl)) := by
  simp [CondRec.complete, nextLta, CondRec.frozen, h]

/-- Settles O44: the sample's part, the recurrence within its bounds, and the record's next averages. -/
theorem averages : Obligations.Averages := by
  refine ⟨fun r x l => ⟨rfl, rfl, rfl, fun h => CondRec.difference_first h x, fun h => CondRec.difference_next h x⟩, ?_,
    fun old a k => ⟨average_cast old a k, average_between old a k⟩, ?_, fun _ _ _ => rfl, fun ps cfg k kl p => ?_⟩
  · rintro k m d p sign rfl
    exact ⟨rfl, fun h ha => (accumulate_of_tick h d m).trans (if_pos ha),
      fun h ha => (accumulate_of_tick h d m).trans (if_neg (not_lt.2 ha))⟩
  · intro ps cfg r p sta lta hsta hlta
    refine ⟨CondRec.complete_sta hsta ps cfg p, fun h0 hf => ?_, fun hor => ?_, rfl⟩
    · rw [CondRec.complete_lta hlta, if_pos ⟨h0, hf⟩]
    · rw [CondRec.complete_lta hlta, if_neg (by omega)]
  · exact ⟨rfl, rfl, CondRec.complete_prevC_settling (Nat.two_pow_pos kl) ps cfg p, rfl⟩

/-! ## The completion of a tick (R8, R15, R18 to R20) -/

theorem CondRec.clipActive_iff {r : CondRec} : r.clipActive = true ↔
    ∃ q k, r.lastClipped = some q ∧ r.completeThrough = some k ∧ k - q ≤ 125 := by
  cases hq : r.lastClipped <;> cases hk : r.completeThrough <;> simp [CondRec.clipActive, hq, hk]

theorem CondRec.complete_clipActive_iff {r : CondRec} {ps : Params} {cfg : ChanConfig} {p : PartialTick} :
    (r.complete ps cfg p).clipActive = true ↔
      cfg.clip ≤ p.m ∨ ∃ q, r.lastClipped = some q ∧ p.tick - q ≤ 125 := by
  have hthrough : (r.complete ps cfg p).completeThrough = some p.tick := rfl
  have hclipped : (r.complete ps cfg p).lastClipped = if cfg.clip ≤ p.m then some p.tick else r.lastClipped := rfl
  rw [CondRec.clipActive_iff, hthrough, hclipped]
  by_cases hc : cfg.clip ≤ p.m
  · simp [hc]
  · simp [hc]

theorem noisyRaw_iff {level lta : Nat} : noisyRaw level lta = true ↔ level ≠ 0 ∧ level ≤ lta / 256 := decide_eq_true_iff

theorem quietRaw_iff {level lta : Nat} : quietRaw level lta = true ↔ level ≠ 0 ∧ lta / 256 ≤ level := decide_eq_true_iff

theorem Channel.takeSample_not_last {asn : Nat} (h : asn % 4 ≠ 3) (c : Channel) (ps : Params) (r : CondRec) (x : Option Int) :
    c.takeSample ps r asn x =
      ({ c with cond := some { r with
          last := x.or r.last, part := some (accumulate r.part (asn / 4) (r.difference x) (magnitude x)) } }, none) :=
  if_neg h

/-- The report of a completed tick, each field by the records before and after. -/
theorem tickReport_spec (cfg : ChanConfig) (p : PartialTick) (r : CondRec) (ps : Params) :
    ((tickReport cfg p r (r.complete ps cfg p)).settleDone = true ↔ r.settleRemaining = 1) ∧
    ((tickReport cfg p r (r.complete ps cfg p)).counted = true ↔ r.settleRemaining = 0) ∧
    ((tickReport cfg p r (r.complete ps cfg p)).noisy = true ↔ r.settleRemaining = 0 ∧ cfg.noise ≠ 0 ∧
      ∃ l, (r.complete ps cfg p).lta = some l ∧ cfg.noise ≤ l / 256) ∧
    ((tickReport cfg p r (r.complete ps cfg p)).quiet = true ↔ r.settleRemaining = 0 ∧ cfg.quiet ≠ 0 ∧
      ∃ l, (r.complete ps cfg p).lta = some l ∧ l / 256 ≤ cfg.quiet) := by
  obtain ⟨l, hl⟩ : ∃ l, (r.complete ps cfg p).lta = some l := ⟨_, rfl⟩
  simp only [tickReport, hl, Option.getD_some, Bool.and_eq_true, beq_iff_eq, noisyRaw_iff, quietRaw_iff,
    Option.some.injEq, exists_eq_left', and_self]

theorem CondRec.oldestHeld_eq (r : CondRec) : r.oldestHeld = r.completeThrough.map fun k => max r.restartTick (k - 1023) := by
  have hslots (k : Nat) : k + 1 - Config.ringSlots = k - 1023 := Nat.add_sub_add_right k 1 1023
  simp only [CondRec.oldestHeld, hslots]

/-- Settles O46: the last sample of a tick by its equation, the report field by field, the held range read off. -/
theorem tickCompletion : Obligations.TickCompletion := by
  refine ⟨fun c ps r asn x => ⟨fun hasn _ => ?_, fun hasn => ?_⟩, ?_, fun c r => ⟨fun hn => ?_, fun hs => ?_⟩, fun ring t => ?_⟩
  · rw [Channel.takeSample_last hasn rfl rfl, accumulate_tick]
    refine ⟨_, rfl, Store.read_write_same _ _ _, fun i hi => ?_, ?_, ⟨_, rfl, rfl⟩, nofun⟩
    · rw [Store.read_write, if_neg hi]
    · exact congrArg some (accumulate_tick _ _ _ _)
  · rw [Channel.takeSample_not_last hasn]
    exact ⟨rfl, rfl⟩
  · intro c ps r r2 asn x p hasn hp hr2
    rw [Channel.takeSample_last hasn hp rfl] at hr2 ⊢
    obtain rfl := Option.some.inj hr2
    obtain ⟨hdone, hcounted, hnoisy, hquiet⟩ := tickReport_spec c.cfg p { r with last := x.or r.last, part := some p } ps
    exact ⟨_, rfl, rfl, hdone, hcounted, CondRec.clipActive_iff, CondRec.complete_clipActive_iff, rfl, hnoisy, hquiet,
      Store.read_write_same _ _ _⟩
  · simp [Channel.completeThrough, Channel.oldestHeld, Channel.clipActive, hn]
  · have hc : c.clipActive = r.clipActive := by simp [Channel.clipActive, hs]
    have ho : c.oldestHeld = r.oldestHeld := by simp [Channel.oldestHeld, hs]
    rw [hc, ho, CondRec.oldestHeld_eq]
    refine ⟨by simp [Channel.completeThrough, hs], fun hn => by simp [hn], fun k hk => by simp [hk], CondRec.clipActive_iff⟩
  · rfl

/-! ## The supervisor at a tick report (R30 to R32, R39) -/

theorem Hold.count_of_open {h : Hold} (he : h.established = false) (raw : Bool) (mute release : Nat) :
    h.count raw mute release =
      if mute ≤ (if raw = true then h.run + 1 else 0) then ⟨true, 0⟩ else ⟨false, if raw = true then h.run + 1 else 0⟩ := by
  simp [Hold.count, he]

theorem Hold.count_of_established {h : Hold} (he : h.established = true) (raw : Bool) (mute release : Nat) :
    h.count raw mute release =
      if release ≤ (if raw = true then 0 else h.run + 1) then ⟨false, 0⟩ else ⟨true, if raw = true then 0 else h.run + 1⟩ := by
  simp [Hold.count, he]

theorem State.latch_nothing (s : State) (j : Fin 256) : s.latch j ⟨false, false, false⟩ = s := by
  simp [State.latch]

theorem State.moveFrom_self (s : State) (j : Fin 256) (dest : ChanState) :
    s.moveFrom j (s.chan j).state dest = s.moveChan j dest id := if_pos rfl

/-- The mute decision, with the two conditions of a channel taken together. -/
theorem State.muteDecision_eq {s : State} {j : Fin 256} {mute : Bool}
    (h : mute = ((s.chan j).cfg.autoMute && ((s.chan j).noisyHold.established || (s.chan j).quietHold.established))) :
    s.muteDecision j = match (s.chan j).state with
      | .live | .lagging => if mute = true then s.moveFrom j (s.chan j).state .muted else s
      | .muted => if mute = true then s else s.moveFrom j (s.chan j).state .live
      | .off | .await | .settling | .lost => s := by
  subst h
  unfold State.muteDecision
  rewrite [State.moveFrom_self, State.moveFrom_self]
  rfl

theorem State.supervise_eq (s : State) (j : Fin 256) (r : TickReport) {t u : State}
    (ht : t = if r.settleDone = true then s.moveFrom j .settling .live else s)
    (hu : u = if r.clipBefore = false ∧ r.clipAfter = true then t.latch j ⟨false, false, true⟩ else t) :
    s.supervise j r =
      if r.counted = true ∧ (u.chan j).state.conditioned = true then (u.countHolds j r).muteDecision j else u := by
  have hlatch : t.latch j ⟨false, false, !r.clipBefore && r.clipAfter⟩ = u := by
    rw [hu]
    cases r.clipBefore <;> cases r.clipAfter <;> simp [State.latch_nothing]
  rw [State.supervise, ← ht, hlatch]
  simp only [Bool.and_eq_true]

/-- Settles O47: a hold by whether it is established, each step of the supervisor by its branches. -/
theorem holdCounts : Obligations.HoldCounts := by
  refine ⟨?count, fun s j old dest => ⟨?_, fun h => if_neg h⟩, ?latch, ?holds, ?mute, ?supervise⟩
  case count =>
    intro h mute release hm hr
    refine ⟨fun he => ?_, fun he hlt => ?_, fun he hle => ?_, fun he => ?_, fun he hlt => ?_, fun he hle => ?_⟩
    · rewrite [Hold.count_of_open he, if_neg (by simpa using hm.ne')]
      rfl
    · rw [Hold.count_of_open he, if_pos rfl, if_neg (by omega)]
    · rw [Hold.count_of_open he, if_pos rfl, if_pos hle]
    · rw [Hold.count_of_established he, if_pos rfl, if_neg (by omega)]
    · rewrite [Hold.count_of_established he, if_neg (by simp; omega)]
      rfl
    · rw [Hold.count_of_established he, if_pos (by simpa using hle)]
  · rintro rfl
    exact s.moveFrom_self j dest
  case latch =>
    rintro s j add after rfl
    exact ⟨fun h => if_pos h, fun h => if_neg h⟩
  case holds =>
    rintro s j r noisy quiet rfl rfl
    rfl
  case mute =>
    intro s j mute hmute
    have hd := State.muteDecision_eq hmute
    refine ⟨fun hor hm => ?_, fun hst hm => ?_, fun hor hm => ?_, fun hst hm => ?_, fun hor => ?_⟩
    · rcases hor with hst | hst <;> simp [hd, hst, hm]
    · simp [hd, hst, hm]
    · rcases hor with hst | hst <;> simp [hd, hst, hm]
    · simp [hd, hst, hm]
    · rcases hor with hst | hst | hst | hst <;> simp [hd, hst]
  case supervise =>
    intro s j r t u ht hu
    have hs := State.supervise_eq s j r ht hu
    refine ⟨fun hc => ?_, fun hc hor => ?_, fun hc hor => ?_⟩
    · rw [hs, if_neg (by simp [hc])]
    · rw [hs, if_pos ⟨hc, by rcases hor with h | h | h | h <;> simp [h, ChanState.conditioned]⟩]
    · rw [hs, if_neg (by rcases hor with h | h | h <;> simp [h, ChanState.conditioned])]

end Sys2Proof.Machine
end

section
/-!
PROOFS. The stack engine (06) and the trigger unit (07): the brightness and its bound, the window peak as the first of the
brightest points, and the decision on a window result.
-/

namespace Sys2Proof.Machine

/-! ## The first of the largest -/

/-- Running through a list and moving only to a strictly larger key ends at the first of the largest: what precedes it is
smaller, and what equals it follows it. -/
theorem foldl_first_largest {α : Type} (key : α → Nat) (R : α → α → Prop) (l : List α) (x : α) (h : (x :: l).Pairwise R) :
    ∃ z, z = l.foldl (fun best y => if key best < key y then y else best) x ∧ z ∈ x :: l ∧ key x ≤ key z ∧
      (key z = key x → z = x) ∧ ∀ y ∈ x :: l, key y < key z ∨ (key y = key z ∧ (y = z ∨ R z y)) := by
  induction l generalizing x with
  | nil => exact ⟨x, rfl, by simp, le_rfl, fun _ => rfl, fun y hy => .inr (by simp_all)⟩
  | cons a l ih =>
    obtain ⟨hx, hal⟩ := List.pairwise_cons.1 h
    by_cases hlt : key x < key a
    · obtain ⟨z, hz, hmem, hle, -, hall⟩ := ih a hal
      refine ⟨z, by rw [List.foldl_cons, if_pos hlt, hz], List.mem_cons_of_mem _ hmem, by omega, by omega, ?_⟩
      rintro y (_ | ⟨_, hy⟩)
      · exact .inl (by omega)
      · exact hall y hy
    · obtain ⟨z, hz, hmem, hle, heq, hall⟩ :=
        ih x (List.pairwise_cons.2 ⟨fun y hy => hx y (List.mem_cons_of_mem _ hy), (List.pairwise_cons.1 hal).2⟩)
      refine ⟨z, by rw [List.foldl_cons, if_neg hlt, hz], ?_, hle, heq, fun y hy => ?_⟩
      · rcases List.mem_cons.1 hmem with rfl | hm
        · exact List.mem_cons_self
        · exact List.mem_cons_of_mem _ (List.mem_cons_of_mem _ hm)
      · rcases List.mem_cons.1 hy with rfl | hy
        · exact hall y List.mem_cons_self
        rcases List.mem_cons.1 hy with rfl | hy
        · rcases Nat.lt_or_ge (key y) (key z) with hlt' | hge
          · exact .inl hlt'
          · obtain rfl := heq (by omega)
            exact .inr ⟨by omega, .inr (hx y List.mem_cons_self)⟩
        · exact hall y (List.mem_cons_of_mem _ hy)

/-! ## Brightness (R111) -/

theorem State.readC_eq (s : State) (j : Fin 256) (t : Nat) : s.readC j t = match Store.read (s.chan j).ring (t % 1024) with
    | some x => if x.tick = t then x.c else 0
    | none => 0 := by
  have hslots : t % Config.ringSlots = t % 1024 := rfl
  rw [State.readC, Ring.at, hslots]
  cases Store.read (s.chan j).ring (t % 1024) with
  | none => rfl
  | some x => by_cases h : x.tick = t <;> simp [h]

theorem State.stackedSum_le {s : State} (h : ∀ j u, s.readC j u ≤ 239) (l : List Contributor) (v t : Nat) :
    s.stackedSum l v t ≤ 239 * weightOf l := by
  induction l with
  | nil => simp [State.stackedSum, weightOf]
  | cons e l ih =>
    simp only [State.stackedSum, weightOf, List.map_cons, List.sum_cons] at ih ⊢
    have he := Nat.mul_le_mul_left e.2 (h e.1 (t + s.banks.active.delay v e.1.val))
    omega

/-- No stacked brightness exceeds sixteen times the largest c. -/
theorem State.brightness_le {s : State} (h : ∀ j u, s.readC j u ≤ 239) (l : List Contributor) (v t : Nat) :
    s.brightness l v t ≤ 3824 := by
  have hsum := State.stackedSum_le h l v t
  exact Nat.div_le_of_le_mul (by omega)

/-! ## The window peak (R113, R114) -/

/-- A place at or before another: an earlier tick, or the same tick and a voxel no higher. -/
def Bright.AtOrBefore (x y : Bright) : Prop := x.tick < y.tick ∨ (x.tick = y.tick ∧ x.voxel ≤ y.voxel)

/-- A place of a window with the brightness found there. -/
def State.brightAt (s : State) (w : Window) (e : Nat × Nat) : Bright := ⟨e.1, e.2, s.brightness w.contributors e.2 e.1⟩

theorem mem_windowPoints {f voxels : Nat} {e : Nat × Nat} :
    e ∈ windowPoints f voxels ↔ 16 * f ≤ e.1 ∧ e.1 ≤ 16 * f + 15 ∧ e.2 < voxels := by
  obtain ⟨t, v⟩ := e
  simp only [windowPoints, List.mem_flatMap, List.mem_map, List.mem_range, Prod.mk.injEq]
  constructor
  · rintro ⟨i, hi, u, hu, rfl, rfl⟩
    omega
  · rintro ⟨h1, h2, hv⟩
    exact ⟨t - 16 * f, by omega, v, hv, by omega, rfl⟩

theorem windowPoints_pairwise (f voxels : Nat) :
    (windowPoints f voxels).Pairwise fun x y => x.1 < y.1 ∨ (x.1 = y.1 ∧ x.2 ≤ y.2) := by
  rw [windowPoints, List.pairwise_flatMap]
  refine ⟨fun i _ => ?_, List.pairwise_lt_range.imp fun {i k} hik => ?_⟩
  · rw [List.pairwise_map]
    exact List.pairwise_lt_range.imp fun huv => .inr ⟨rfl, huv.le⟩
  · simp only [List.mem_map]
    rintro _ ⟨u, _, rfl⟩ _ ⟨v, _, rfl⟩
    exact .inl (Nat.add_lt_add_left hik _)

theorem State.brightest_eq (s : State) (w : Window) :
    s.brightest w = ((windowPoints w.window s.banks.grid.voxels).map (s.brightAt w)).foldl
      (fun best y => if best.b < y.b then y else best) (s.brightAt w (16 * w.window, 0)) := by
  rewrite [List.foldl_map]
  rfl

/-- The window peak is one of the window's points, and the first of the brightest. -/
theorem State.brightest_spec (s : State) (w : Window) (hvox : 0 < s.banks.grid.voxels) :
    ∃ e ∈ windowPoints w.window s.banks.grid.voxels, s.brightest w = s.brightAt w e ∧
      ∀ e' ∈ windowPoints w.window s.banks.grid.voxels, (s.brightAt w e').b < (s.brightAt w e).b ∨
        ((s.brightAt w e').b = (s.brightAt w e).b ∧ (s.brightAt w e).AtOrBefore (s.brightAt w e')) := by
  have hfirst : (16 * w.window, 0) ∈ windowPoints w.window s.banks.grid.voxels := mem_windowPoints.2 ⟨le_rfl, by simp, hvox⟩
  have hpair : (s.brightAt w (16 * w.window, 0) ::
      (windowPoints w.window s.banks.grid.voxels).map (s.brightAt w)).Pairwise Bright.AtOrBefore := by
    refine List.pairwise_cons.2 ⟨fun y hy => ?_, ?_⟩
    · obtain ⟨e, he, rfl⟩ := List.mem_map.1 hy
      have hlo := (mem_windowPoints.1 he).1
      simp only [Bright.AtOrBefore, State.brightAt]
      omega
    · rw [List.pairwise_map]
      exact windowPoints_pairwise _ _
  obtain ⟨z, hz, hmem, -, -, hall⟩ := foldl_first_largest Bright.b Bright.AtOrBefore _ _ hpair
  rw [← s.brightest_eq w] at hz
  have hpoint : ∃ e ∈ windowPoints w.window s.banks.grid.voxels, s.brightAt w e = z := by
    rcases List.mem_cons.1 hmem with h | h
    · exact ⟨_, hfirst, h.symm⟩
    · exact List.mem_map.1 h
  obtain ⟨e, he, rfl⟩ := hpoint
  refine ⟨e, he, hz.symm, fun e' he' => ?_⟩
  refine (hall _ (List.mem_cons_of_mem _ (List.mem_map_of_mem he'))).imp id fun ⟨hb, hor⟩ => ⟨hb, hor.elim (fun heq => ?_) id⟩
  rw [heq]
  exact .inr ⟨rfl, le_rfl⟩

theorem State.coherent_eq (s : State) (x : Bright) (e : Contributor) :
    s.coherent x e = match Store.read (s.chan e.1).ring ((x.tick + s.banks.active.delay x.voxel e.1.val) % 1024) with
      | some y => decide (y.tick = x.tick + s.banks.active.delay x.voxel e.1.val ∧ s.param .pickLevel ≤ y.c)
      | none => false := by
  have hslots (t : Nat) : t % Config.ringSlots = t % 1024 := rfl
  rw [State.coherent, Ring.at, hslots]
  cases Store.read (s.chan e.1).ring ((x.tick + s.banks.active.delay x.voxel e.1.val) % 1024) with
  | none => rfl
  | some y => by_cases h : y.tick = x.tick + s.banks.active.delay x.voxel e.1.val <;> simp [h]

/-- Settles O49: the bound on the sum, the first of the brightest points, and the record of the peak read off. -/
theorem brightnessAndPeak : Obligations.BrightnessAndPeak := by
  refine ⟨fun s l v t _ _ hc => State.brightness_le hc l v t, ?_, fun s w hb => if_pos hb, fun _ _ _ _ => rfl,
    fun s j t => ?_, ?_⟩
  · rintro s w p hvox rfl
    obtain ⟨e, he, hbest, hall⟩ := s.brightest_spec w hvox
    obtain ⟨hlo, hhi, hv⟩ := mem_windowPoints.1 he
    have htick : (s.windowPeak w).tick = e.1 := congrArg Bright.tick hbest
    have hvoxel : (s.windowPeak w).voxel = e.2 := congrArg Bright.voxel hbest
    have hb : (s.windowPeak w).b = s.brightness w.contributors e.2 e.1 := congrArg Bright.b hbest
    rw [htick, hvoxel, hb]
    refine ⟨hlo, hhi, hv, rfl, fun v t hv' h1 h2 => ?_, fun hzero => ?_, fun hblind => if_neg (by simp [hblind])⟩
    · exact hall (t, v) (mem_windowPoints.2 ⟨h1, h2, hv'⟩)
    · have hz := hzero e.2 e.1 hv hlo hhi
      have hfirst := hall (16 * w.window, 0) (mem_windowPoints.2 ⟨le_rfl, by simp, hvox⟩)
      simp only [State.brightAt, hz, Bright.AtOrBefore] at hfirst
      omega
  · rewrite [State.readC_eq]
    cases Store.read (s.chan j).ring (t % 1024) <;> rfl
  · rintro s w p rfl
    refine ⟨rfl, rfl, rfl, List.countP_congr fun e _ => ?_⟩
    have htick : (s.windowPeak w).tick = (s.brightest w).tick := rfl
    have hvoxel : (s.windowPeak w).voxel = (s.brightest w).voxel := rfl
    rewrite [State.coherent_eq, htick, hvoxel]
    cases Store.read (s.chan e.1).ring (((s.brightest w).tick + s.banks.active.delay (s.brightest w).voxel e.1.val) % 1024)
      <;> rfl

/-! ## The decision on a window result (R126 to R130) -/

section
variable {ps : Params} {t : Trigger} {r : WindowResult}

theorem Trigger.take_idle (h : t.state = .idle) : t.take ps r = t.takeIdle ps r := by
  simp only [Trigger.take, h]

theorem Trigger.take_armed (h : t.state = .armed) : t.take ps r = t.takeArmed ps r := by
  simp only [Trigger.take, h]

theorem Trigger.take_opened (h : t.state = .opened) : t.take ps r = t.takeOpen ps r := by
  simp only [Trigger.take, h]

theorem Trigger.closeTest_stay (hq : t.quietCount < ps.get .quietClose) (he : t.openCount < ps.get .eMax) (ms : List Move) :
    t.closeTest ps ms = ⟨t, ms, none⟩ := by
  rw [Trigger.closeTest, if_neg (by omega), if_neg (by omega), Trigger.stay]

theorem Trigger.closeTest_quiet (hq : ps.get .quietClose ≤ t.quietCount) (ms : List Move) :
    t.closeTest ps ms = t.closeNow ms false := if_pos hq

theorem Trigger.closeTest_limit (hq : t.quietCount < ps.get .quietClose) (he : ps.get .eMax ≤ t.openCount) (ms : List Move) :
    t.closeTest ps ms = t.closeNow ms true := by
  rw [Trigger.closeTest, if_neg (by omega), if_pos he]

/-- An event that opens stays open, or closes at the limit of one window. -/
theorem Trigger.openWith_eq (hq : 0 < ps.get .quietClose) (best : Peak) (ms : List Move) :
    Trigger.openWith ps best ms =
      if 1 < ps.get .eMax then ⟨⟨.opened, some best, 0, 1, 0⟩, ms ++ [⟨.armed, .opened, false⟩], none⟩
      else ⟨⟨.idle, none, 0, 0, 0⟩, (ms ++ [⟨.armed, .opened, false⟩]) ++ [⟨.opened, .idle, false⟩], some ⟨best, 1, true⟩⟩ := by
  split
  next he => exact Trigger.closeTest_stay hq he _
  next he => exact Trigger.closeTest_limit hq (not_lt.1 he) _

theorem Trigger.rejectTest_eq (ms : List Move) :
    t.rejectTest ps ms = if t.armedCount < ps.get .confirmLimit then ⟨t, ms, none⟩
      else ⟨⟨.idle, none, 0, 0, 0⟩, ms ++ [⟨.armed, .idle, true⟩], none⟩ := by
  by_cases h : t.armedCount < ps.get .confirmLimit
  · rewrite [if_pos h, Trigger.rejectTest, if_neg (not_le.2 h)]
    rfl
  · rewrite [if_neg h, Trigger.rejectTest, if_pos (not_lt.1 h)]
    rfl

theorem Trigger.takeArmed_confirms {p : Peak} (hp : p.confirms ps = true) :
    t.takeArmed ps (.peak p) = Trigger.openWith ps (higher t.candidate p) [] := if_pos hp

theorem Trigger.takeArmed_unconfirmed {p : Peak} (hp : ¬p.confirms ps = true) :
    t.takeArmed ps (.peak p) =
      Trigger.rejectTest ps { t with candidate := some (higher t.candidate p), armedCount := t.armedCount + 1 } [] :=
  if_neg hp

theorem Peak.confirms_iff {p : Peak} : p.confirms ps = true ↔ ps.get .t1 ≤ p.b ∧ ps.get .kmin ≤ p.k := decide_eq_true_iff

theorem higher_some (q p : Peak) : higher (some q) p = if q.b < p.b then p else q := rfl

end

/-! ## A window result handed on (R116, R169) -/

theorem Peak.quietFor_iff {p : Peak} {level : Nat} {before : TrigState} {d : Decision} :
    p.quietFor level before d = true ↔ p.b < level ∧ before = .idle ∧ d.moves = [] := by
  simp [Peak.quietFor, and_assoc]

theorem State.carryOut_of_open {d : Decision} (h : d.close = none) (s : State) (w : Nat) (tr : Bool) :
    s.carryOut d w tr = d.moves.foldl (fun s m => s.offer (.trigger m.old m.new w m.rejected)) s := by
  simp only [State.carryOut, h]

theorem State.carryOut_of_close {d : Decision} {c : Close} (h : d.close = some c) (s : State) (w : Nat) (tr : Bool) :
    s.carryOut d w tr =
      (d.moves.foldl (fun s m => s.offer (.trigger m.old m.new w m.rejected)) s).closeEvent c tr := by
  simp only [State.carryOut, h]

/-- Settles O50: the decision by the state and the result, then the entries that carry it out. -/
theorem triggerDecision : Obligations.TriggerDecision := by
  refine ⟨fun ps t p w n m => ⟨fun hi hb => ?_, fun hi => ?_, fun hi hb hk hq => ⟨fun he => ?_, fun he => ?_⟩,
    fun hi hb hk => ⟨fun hc => ?_, fun hc => ?_⟩, ?armed, fun ha hc => ?_, fun ha hc => ?_, ?opened⟩, ?result⟩
  · rw [Trigger.take_idle hi, Trigger.takeIdle, if_neg (by omega), Trigger.stay]
  · rw [Trigger.take_idle hi, Trigger.takeIdle, Trigger.stay]
  · rewrite [Trigger.take_idle hi, Trigger.takeIdle, if_pos hb, if_pos hk, Trigger.openWith_eq hq, if_pos he]
    rfl
  · rewrite [Trigger.take_idle hi, Trigger.takeIdle, if_pos hb, if_pos hk, Trigger.openWith_eq hq, if_neg (by omega)]
    rfl
  · rw [Trigger.take_idle hi, Trigger.takeIdle, if_pos hb, if_neg (by omega), Trigger.rejectTest_eq, if_pos hc]
  · rewrite [Trigger.take_idle hi, Trigger.takeIdle, if_pos hb, if_neg (by omega), Trigger.rejectTest_eq,
      if_neg (not_lt.2 hc)]
    rfl
  case armed =>
    rintro cand _ ha hcand rfl
    rw [Trigger.take_armed ha]
    refine ⟨fun hb hk hq => ?_, fun hor => ?_⟩
    · rw [Trigger.takeArmed_confirms (Peak.confirms_iff.2 ⟨hb, hk⟩), hcand, higher_some, Trigger.openWith_eq hq]
      exact ⟨fun he => if_pos he, fun he => if_neg (not_lt.2 he)⟩
    · rw [Trigger.takeArmed_unconfirmed (by rw [Peak.confirms_iff]; omega), hcand, higher_some, Trigger.rejectTest_eq]
      exact ⟨fun hc => if_pos hc, fun hc => if_neg (not_lt.2 hc)⟩
  · rw [Trigger.take_armed ha, Trigger.takeArmed, Trigger.rejectTest_eq, if_pos hc]
  · rewrite [Trigger.take_armed ha, Trigger.takeArmed, Trigger.rejectTest_eq, if_neg (not_lt.2 hc)]
    rfl
  case opened =>
    intro best kept r quiet ho hbest hr
    have htake : t.take ps r =
        Trigger.closeTest ps { t with candidate := some kept, openCount := t.openCount + 1, quietCount := quiet } [] := by
      rw [Trigger.take_opened ho, Trigger.takeOpen]
      rcases hr with ⟨rfl, rfl, rfl⟩ | ⟨rfl, rfl, rfl⟩
      · rw [Trigger.nextBest, Trigger.nextQuiet, hbest, higher_some]
      · rw [Trigger.nextBest, Trigger.nextQuiet, hbest]
    rw [htake]
    exact ⟨fun hq he => Trigger.closeTest_stay hq he [], fun hq => Trigger.closeTest_quiet hq [],
      fun hq he => Trigger.closeTest_limit hq he []⟩
  case result =>
    rintro s r d w t u v rfl rfl rfl hu rfl
    have hentry : ({ s with trig := (s.trig.take s.params r).trig } : State).windowEntry r s.trig.state
        (s.trig.take s.params r) = u := by
      rw [hu]
      cases r with
      | peak p => exact if_congr Peak.quietFor_iff rfl rfl
      | blind w n m => rfl
    refine ⟨fun hc => ?_, fun c hc => ?_⟩
    · rw [State.takeResult, State.carryOut_of_open hc, hentry]
      cases r <;> rfl
    · rw [State.takeResult, State.carryOut_of_close hc, hentry]
      cases r <;> rfl

end Sys2Proof.Machine
end

section
/-!
PROOFS. The event builder and the event queue (07, 08): zones and levels, picks under their cap, the close of an event, and
the record queued, queued for an evicted one, or dropped.
-/

namespace Sys2Proof.Machine

/-! ## The event queue (R150, R151) -/

theorem EventLevel.code_le (l : EventLevel) : l.code ≤ 2 := by
  cases l <;> decide

theorem foldl_min_spec (l : List Nat) (a : Nat) :
    l.foldl min a ≤ a ∧ (∀ x ∈ l, l.foldl min a ≤ x) ∧ (l.foldl min a = a ∨ l.foldl min a ∈ l) := by
  induction l generalizing a with
  | nil => simp
  | cons b l ih =>
    obtain ⟨hle, hall, hor⟩ := ih (min a b)
    rw [List.foldl_cons]
    refine ⟨by omega, ?_, ?_⟩
    · rintro x (_ | ⟨_, hx⟩)
      · omega
      · exact hall x hx
    · rcases hor with h | h
      · rcases le_total a b with hab | hab
        · exact .inl (by omega)
        · exact .inr (List.mem_cons.2 (.inl (by omega)))
      · exact .inr (List.mem_cons_of_mem _ h)

/-- A bound on every level held bounds the lowest one. -/
theorem EventQueue.le_lowest {q : EventQueue} {l : EventLevel} (h : ∀ x ∈ q.records, l.code ≤ x.level.code) :
    l.code ≤ q.lowest := by
  rcases (foldl_min_spec (q.records.map fun e => e.level.code) 2).2.2 with hl | hl
  · exact l.code_le.trans hl.ge
  · obtain ⟨x, hx, he⟩ := List.mem_map.1 hl
    exact (h x hx).trans he.le

theorem EventQueue.lowest_le {q : EventQueue} {x : EventRecord} (h : x ∈ q.records) : q.lowest ≤ x.level.code :=
  (foldl_min_spec (q.records.map fun e => e.level.code) 2).2.1 _ (List.mem_map_of_mem h)

theorem EventQueue.victim_none {q : EventQueue} {l : EventLevel} (h : ∀ x ∈ q.records, l.code ≤ x.level.code) :
    q.victim l = none := if_neg (not_lt.2 (EventQueue.le_lowest h))

/-- The victim is the record that none is below, and that those ahead of it are above. -/
theorem EventQueue.victim_eq_some {q : EventQueue} {l : EventLevel} {pre post : List EventRecord} {old : EventRecord}
    (hq : q.records = pre ++ old :: post) (hl : old.level.code < l.code) (hpre : ∀ x ∈ pre, old.level.code < x.level.code)
    (hpost : ∀ x ∈ post, old.level.code ≤ x.level.code) : q.victim l = some old := by
  have hge : old.level.code ≤ q.lowest := EventQueue.le_lowest fun x hx => by
    rw [hq, List.mem_append, List.mem_cons] at hx
    rcases hx with hx | rfl | hx
    · exact (hpre x hx).le
    · exact le_rfl
    · exact hpost x hx
  have hlow : q.lowest = old.level.code := le_antisymm (EventQueue.lowest_le (by simp [hq])) hge
  have hnone : pre.find? (fun e => e.level.code == old.level.code) = none := by
    rw [List.find?_eq_none]
    exact fun x hx he => absurd (hpre x hx) (by rw [beq_iff_eq.1 he]; exact lt_irrefl _)
  rw [EventQueue.victim, hlow, if_pos hl, hq, List.find?_append, hnone, Option.none_or, List.find?_cons_of_pos (by simp)]

theorem EventQueue.erase_victim {pre post : List EventRecord} {old : EventRecord}
    (hpre : ∀ x ∈ pre, old.level.code < x.level.code) : (pre ++ old :: post).erase old = pre ++ post := by
  rw [List.erase_append_right _ fun h => absurd (hpre old h) (lt_irrefl _), List.erase_cons_head]

theorem State.queueRecord_of_room {s : State} (h : s.queue.records.length < 32) (e : EventRecord) :
    s.queueRecord e = ({ s with queue := s.queue.add e } : State).raiseBoth .event := if_pos h

theorem State.queueRecord_of_victim {s : State} {e old : EventRecord} (hfull : 32 ≤ s.queue.records.length)
    (hv : s.queue.victim e.level = some old) :
    s.queueRecord e = ({ ({ s with queue := s.queue.remove old } : State).offer (.evicted old.sequence) with
      queue := (s.queue.remove old).add e } : State).raiseBoth .event := by
  have hlt : ¬s.queue.records.length < Config.queuePlaces := not_lt.2 hfull
  rw [State.queueRecord, if_neg hlt, hv]
  simp only [State.offer_queue]

theorem State.queueRecord_of_dropped {s : State} {e : EventRecord} (hfull : 32 ≤ s.queue.records.length)
    (hv : s.queue.victim e.level = none) : s.queueRecord e = s.offer (.dropped e.sequence) := by
  have hlt : ¬s.queue.records.length < Config.queuePlaces := not_lt.2 hfull
  rw [State.queueRecord, if_neg hlt, hv]

theorem State.queueRecord_alert (s : State) (e : EventRecord) : (s.queueRecord e).alert = s.alert := by
  unfold State.queueRecord
  split
  · simp
  · split <;> simp

/-! ## Zones and levels (R138, R141) -/

theorem ZoneRule.contains_iff {z : ZoneRule} {ix iy iz : Nat} : z.contains (ix, iy, iz) = true ↔
    z.ix0 ≤ ix ∧ ix ≤ z.ix1 ∧ z.iy0 ≤ iy ∧ iy ≤ z.iy1 ∧ z.iz0 ≤ iz ∧ iz ≤ z.iz1 := by
  simp [ZoneRule.contains, and_assoc]

theorem Grid.coords_eq {g : Grid} {ix iy : Nat} (hx : ix < g.nx) (hy : iy < g.ny) (iz : Nat) :
    g.coords (ix + g.nx * (iy + g.ny * iz)) = (ix, iy, iz) := by
  have hnx : 0 < g.nx := by omega
  have hny : 0 < g.ny := by omega
  have hdiv : (ix + g.nx * (iy + g.ny * iz)) / g.nx = iy + g.ny * iz := by
    rw [Nat.add_mul_div_left _ _ hnx, Nat.div_eq_of_lt hx, Nat.zero_add]
  have hmod : (iy + g.ny * iz) % g.ny = iy := by rw [Nat.add_mul_mod_self_left, Nat.mod_eq_of_lt hy]
  have hdiv' : (iy + g.ny * iz) / g.ny = iz := by
    rw [Nat.add_mul_div_left _ _ hny, Nat.div_eq_of_lt hy, Nat.zero_add]
  rw [Grid.coords, Nat.add_mul_mod_self_left, Nat.mod_eq_of_lt hx, ← Nat.div_div_eq_div_mul, hdiv, hmod, hdiv']

/-- A zone rule takes a voxel: it is enabled and its box contains it. -/
def State.zoneTakes (s : State) (v : Nat) (i : Fin 8) : Bool :=
  (vget s.zones i).enabled && (vget s.zones i).contains (s.banks.grid.coords v)

theorem State.zoneOf_eq (s : State) (v : Nat) :
    s.zoneOf v = match (List.ofFn fun i : Fin 8 => (i, vget s.zones i)).find?
        fun e => e.2.enabled && e.2.contains (s.banks.grid.coords v) with
      | some e => e.1.val
      | none => 8 := by
  rewrite [State.zoneOf, enumFin_eq_map, List.ofFn_eq_map]
  rfl

theorem State.zoneOf_first {s : State} {v : Nat} {i : Fin 8} (hi : s.zoneTakes v i = true)
    (hk : ∀ k, k < i → ¬s.zoneTakes v k = true) : s.zoneOf v = i.val := by
  have hfind := (List.find?_ofFn_eq_some_of_injective (f := fun i : Fin 8 => (i, vget s.zones i))
    (p := fun e => e.2.enabled && e.2.contains (s.banks.grid.coords v)) fun a b hab => congrArg Prod.fst hab).2 ⟨hi, hk⟩
  rw [State.zoneOf_eq, hfind]

theorem State.zoneOf_none {s : State} {v : Nat} (h : ∀ i, ¬s.zoneTakes v i = true) : s.zoneOf v = 8 := by
  have hfind : (List.ofFn fun i : Fin 8 => (i, vget s.zones i)).find?
      (fun e => e.2.enabled && e.2.contains (s.banks.grid.coords v)) = none := by
    rw [List.find?_eq_none]
    intro e he
    obtain ⟨i, rfl⟩ := (List.mem_ofFn' _ _).1 he
    exact h i
  rw [State.zoneOf_eq, hfind]

/-! ## Picks (R134 to R137) -/

theorem Ring.at_tick {ring : Ring} {t : Nat} {x : Slot} (h : Ring.at ring t = some x) : x.tick = t := by
  unfold Ring.at at h
  split at h
  · split at h
    next ht => exact Option.some.inj h ▸ ht
    next => cases h
  · cases h

theorem mem_searchTicks {ring : Ring} {a r : Nat} {x : Slot} :
    x ∈ searchTicks ring a r ↔ a ≤ x.tick + r ∧ x.tick ≤ a + r ∧ Ring.at ring x.tick = some x := by
  simp only [searchTicks, List.mem_filterMap, List.mem_range, Option.ite_none_right_eq_some]
  constructor
  · rintro ⟨i, hi, hle, hat⟩
    have ht := Ring.at_tick hat
    exact ⟨by omega, by omega, by rwa [ht]⟩
  · rintro ⟨hlo, hhi, hat⟩
    refine ⟨x.tick + r - a, by omega, by omega, ?_⟩
    rwa [show a + (x.tick + r - a) - r = x.tick by omega]

theorem searchTicks_pairwise (ring : Ring) (a r : Nat) : (searchTicks ring a r).Pairwise fun x y => x.tick < y.tick := by
  refine List.pairwise_lt_range.filterMap _ fun i k hik x hx y hy => ?_
  simp only [Option.ite_none_right_eq_some] at hx hy
  have hxt := Ring.at_tick hx.2
  have hyt := Ring.at_tick hy.2
  omega

/-- The pick tick is the slot of the largest c, the earliest among equals. -/
theorem pickSlot_eq_some {l : List Slot} (hl : l.Pairwise fun x y => x.tick < y.tick) {x : Slot} (hx : x ∈ l)
    (hbest : ∀ y ∈ l, y.c < x.c ∨ (y.c = x.c ∧ x.tick ≤ y.tick)) : pickSlot l = some x := by
  cases l with
  | nil => cases hx
  | cons a l =>
    obtain ⟨z, hz, hmem, -, -, hall⟩ := foldl_first_largest Slot.c (fun x y => x.tick < y.tick) l a hl
    rw [pickSlot, ← hz]
    congr 1
    rcases hall x hx with hlt | ⟨hc, hor⟩
    · rcases hbest z hmem with h | h <;> omega
    · rcases hor with heq | hlt
      · exact heq.symm
      · rcases hbest z hmem with h | h <;> omega

theorem motionOf_eq (g : Sign) (p : Polarity) :
    motionOf g p = if g = .pos ↔ p = .positive then .up else .down := by
  cases g <;> cases p <;> rfl

theorem State.pick_of_slot {s : State} {best : Peak} {j : Fin 256} {x : Slot}
    (h : pickSlot (searchTicks (s.chan j).ring (best.tick + s.banks.active.delay best.voxel j.val) (s.param .pickRadius)) =
      some x) :
    s.pick best j = if s.param .pickLevel ≤ x.c then
      some ⟨j, (x.tick : Int) - ((best.tick + s.banks.active.delay best.voxel j.val : Nat) : Int), x.c,
        motionOf x.sign (s.chan j).cfg.polarity⟩
      else none := by
  simp only [State.pick, h]

theorem State.pick_of_no_slot {s : State} {best : Peak} {j : Fin 256}
    (h : searchTicks (s.chan j).ring (best.tick + s.banks.active.delay best.voxel j.val) (s.param .pickRadius) = []) :
    s.pick best j = none := by
  simp only [State.pick, h, pickSlot]

theorem State.pick_channel {s : State} {best : Peak} {j : Fin 256} {p : Pick} (h : s.pick best j = some p) :
    p.channel = j := by
  simp only [State.pick] at h
  split at h
  · split at h
    · exact Option.some.inj h ▸ rfl
    · cases h
  · cases h

/-- Where a pick stands under the cap: a larger c ranks above, among equals the lower channel. -/
def Pick.rank (p : Pick) : Nat := 256 * p.c + (255 - p.channel.val)

theorem Pick.above_eq (p q : Pick) : q.above p = decide (p.c < q.c ∨ (q.c = p.c ∧ q.channel < p.channel)) := by
  rewrite [Bool.decide_or, Bool.decide_and]
  rfl

theorem Pick.above_iff {p q : Pick} : q.above p = true ↔ p.rank < q.rank := by
  have hp := p.channel.isLt
  have hq := q.channel.isLt
  simp only [Pick.above, Pick.rank, Bool.or_eq_true, Bool.and_eq_true, decide_eq_true_eq, beq_iff_eq, Fin.lt_def]
  omega

theorem Pick.rank_injective_of_channel {p q : Pick} (h : p.rank = q.rank) : p.channel = q.channel := by
  have hp := p.channel.isLt
  have hq := q.channel.isLt
  simp only [Pick.rank] at h
  exact Fin.ext (by omega)

/-- Of picks on distinct channels no more are kept than the cap: the lowest of those kept has all the others above it. -/
theorem length_capPicks_le {cap : Nat} {ps : List Pick} (h : (ps.map Pick.channel).Nodup) :
    (capPicks cap ps).length ≤ cap := by
  rcases (capPicks cap ps).eq_nil_or_concat with hnil | ⟨l, b, hl⟩
  · simp [hnil]
  have hne : (capPicks cap ps).toFinset.Nonempty := ⟨b, by simp [hl]⟩
  obtain ⟨p, hp, hmin⟩ := (capPicks cap ps).toFinset.exists_min_image Pick.rank hne
  rw [List.mem_toFinset] at hp
  have hsub : (capPicks cap ps).Sublist ps := List.filter_sublist
  have hcap : ps.countP (fun q => q.above p) < cap := by simpa using (List.mem_filter.1 hp).2
  have hothers : (capPicks cap ps).countP (fun q => !q.above p) ≤ 1 := by
    have heq : (capPicks cap ps).countP (fun q => !q.above p) = (capPicks cap ps).count p := by
      refine List.countP_congr fun q hq => ?_
      rw [Bool.not_eq_true', ← Bool.not_eq_true, Pick.above_iff, beq_iff_eq]
      refine ⟨fun hle => ?_, fun he => by rw [he]; exact lt_irrefl _⟩
      have hrank := le_antisymm (not_lt.1 hle) (hmin q (List.mem_toFinset.2 hq))
      exact List.inj_on_of_nodup_map h (hsub.subset hq) (hsub.subset hp) (Pick.rank_injective_of_channel hrank)
    rw [heq]
    exact List.nodup_iff_count_le_one.1 ((List.Nodup.of_map _ h).sublist hsub) p
  have hsplit := List.length_eq_countP_add_countP (fun q : Pick => q.above p) (l := capPicks cap ps)
  have habove := hsub.countP_le (p := fun q : Pick => q.above p)
  simp only [Bool.not_eq_true, Bool.decide_eq_false] at hsplit
  omega

theorem State.length_picks_le {s : State} {best : Peak} (h : (best.contributors.map fun e => e.1).Nodup) :
    (s.picks best).length ≤ s.param .pickCap := by
  refine length_capPicks_le ?_
  rw [List.Nodup, List.pairwise_map] at h ⊢
  refine h.filterMap _ fun e e' hne p hp p' hp' => ?_
  rw [State.pick_channel hp, State.pick_channel hp']
  exact hne

/-! ## The close (R131, R139 to R144) -/

theorem State.suppressesClose_iff {s : State} {z : Nat} :
    s.suppressesClose z = true ↔ (s.zone z).suppress = true ∨ 4294967295 ≤ s.queue.counter := by
  rewrite [State.suppressesClose, Bool.or_eq_true, decide_eq_true_eq]
  rfl

theorem State.handOn_of_rehearsal {e : EventRecord} (h : e.rehearsal = true) (s : State) :
    s.handOn e = (s.offer (.event e.sequence e.level)).queueRecord e := by
  simp [State.handOn, h]

theorem State.handOn_of_not_rehearsal {e : EventRecord} (h : e.rehearsal = false) (s : State) :
    s.handOn e = ((s.offer (.event e.sequence e.level)).queueRecord e).takeLevel e.level e.sequence := by
  simp [State.handOn, h]

/-- Settles O51: the close by its zone, the queue by its room, the pick by its slot, the zone by the first rule. -/
theorem eventCloses : Obligations.EventCloses := by
  refine ⟨?close, fun s e => ⟨fun h => State.handOn_of_rehearsal h s, fun h => State.handOn_of_not_rehearsal h s⟩, ?queue,
    fun s l q => ⟨fun h => ?_, fun a h => ?_⟩, ?pick, ?picks, ?zones, fun s i => ⟨s.zone_rule i, s.zone_default⟩, ?levels⟩
  case close =>
    rintro s c tr _ rfl
    refine ⟨fun hor => if_pos (State.suppressesClose_iff.2 hor), fun hz hc => ?_⟩
    have hno : ¬s.suppressesClose (s.zoneOf c.best.voxel) = true := by
      rw [State.suppressesClose_iff, hz, not_or]
      exact ⟨nofun, not_le.2 hc⟩
    have hclose : s.closeEvent c tr =
        ({ s with queue := { s.queue with counter := s.queue.counter + 1 } } : State).handOn
          (({ s with queue := { s.queue with counter := s.queue.counter + 1 } } : State).buildRecord c tr
            (s.queue.counter + 1)) := if_neg hno
    refine ⟨_, hclose, rfl, rfl, rfl, rfl, rfl, rfl, rfl, rfl, rfl, rfl, rfl, rfl, rfl, rfl, rfl, beq_iff_eq, rfl,
      State.length_picks_le, fun hr => ?_⟩
    rw [hclose, State.handOn_of_rehearsal (beq_iff_eq.2 hr), State.queueRecord_alert, State.offer_alert]
  case queue =>
    rintro s e _ rfl
    refine ⟨fun h => State.queueRecord_of_room h e, ?_, fun hfull hall => State.queueRecord_of_dropped hfull
      (EventQueue.victim_none hall)⟩
    rintro pre post old _ hfull hq hl hpre hpost rfl
    rewrite [State.queueRecord_of_victim hfull (EventQueue.victim_eq_some hq hl hpre hpost), EventQueue.remove, hq,
      EventQueue.erase_victim hpre]
    rfl
  · have h' : s.alert.take s.dwellMs l q = none := h
    simp only [State.takeLevel, h']
  · have h' : s.alert.take s.dwellMs l q = some a := h
    simp only [State.takeLevel, h', State.changeAlert]
  case pick =>
    rintro s best j _ _ rfl rfl
    refine ⟨fun t x hlo hhi hat hbest => ?_, fun hnone => State.pick_of_no_slot ?_⟩
    · have ht := Ring.at_tick hat
      subst ht
      have hslot := pickSlot_eq_some (searchTicks_pairwise _ _ _) (mem_searchTicks.2 ⟨hlo, hhi, hat⟩) fun y hy => by
        obtain ⟨h1, h2, h3⟩ := mem_searchTicks.1 hy
        exact hbest y.tick y h1 h2 h3
      rw [State.pick_of_slot hslot, motionOf_eq]
      exact ⟨fun hle => if_pos hle, fun hlt => if_neg (not_le.2 hlt)⟩
    · rw [List.eq_nil_iff_forall_not_mem]
      intro x hx
      obtain ⟨h1, h2, h3⟩ := mem_searchTicks.1 hx
      rw [hnone x.tick h1 h2] at h3
      cases h3
  case picks =>
    rintro s best _ rfl
    simp only [State.picks, capPicks, Pick.above_eq]
  case zones =>
    rintro s v ix iy iz hit hx hy rfl rfl
    have hcoords := Grid.coords_eq hx hy iz
    have htakes (i : Fin 8) : s.zoneTakes (ix + s.banks.grid.nx * (iy + s.banks.grid.ny * iz)) i = true ↔
        (vget s.zones i).enabled = true ∧ (vget s.zones i).ix0 ≤ ix ∧ ix ≤ (vget s.zones i).ix1 ∧
          (vget s.zones i).iy0 ≤ iy ∧ iy ≤ (vget s.zones i).iy1 ∧ (vget s.zones i).iz0 ≤ iz ∧ iz ≤ (vget s.zones i).iz1 := by
      rw [State.zoneTakes, hcoords, Bool.and_eq_true, ZoneRule.contains_iff]
    refine ⟨hcoords, fun i hi hk => ?_, fun hno => ?_⟩
    · exact State.zoneOf_first ((htakes i).2 hi) fun k hlt hkt => hk k hlt ((htakes k).1 hkt)
    · exact State.zoneOf_none fun i hi => hno i ((htakes i).1 hi)
  case levels =>
    intro z th b
    refine ⟨⟨rfl, rfl, rfl⟩, fun hr => if_pos hr, fun hr ha => ?_, fun hr ha => ?_⟩
    · rw [Threshold.level, if_neg (not_le.2 hr), if_pos ha]
    · rw [Threshold.level, if_neg (not_le.2 hr), if_neg (not_le.2 ha)]

end Sys2Proof.Machine
end

section
/-!
PROOFS. The stack scheduler (06): the awaited set, readiness and due as conditions on channels, the start of a stacking, the
advance of the front, and what each of them leaves of the channels.
-/

namespace Sys2Proof.Machine

/-! ## Conditions on a channel (R102 to R104) -/

theorem ChanState.conditioned_iff {st : ChanState} :
    st.conditioned = true ↔ st = .settling ∨ st = .live ∨ st = .lagging ∨ st = .muted := by
  cases st <;> simp [ChanState.conditioned]

theorem Channel.ready_iff {c : Channel} {w d : Nat} : c.ready w d = true ↔
    ∃ o k, c.oldestHeld = some o ∧ c.completeThrough = some k ∧ o ≤ 16 * w ∧ 16 * w + 15 + d ≤ k := by
  cases ho : c.oldestHeld <;> cases hk : c.completeThrough <;> simp [Channel.ready, ho, hk]

theorem Channel.member_iff {c : Channel} {w : Nat} : c.member w = true ↔
    c.state = .live ∧ c.weightInForce ≠ 0 ∧ ∃ o, c.oldestHeld = some o ∧ o ≤ 16 * w := by
  cases ho : c.oldestHeld <;> simp [Channel.member, ho, and_assoc]

theorem Channel.makesDue_iff {c : Channel} {w d : Nat} : c.makesDue w d = true ↔
    c.state.conditioned = true ∧ ∃ k, c.completeThrough = some k ∧ 16 * w + 15 + d ≤ k := by
  cases hk : c.completeThrough <;> simp [Channel.makesDue, hk]

theorem Channel.rejoins_iff {c : Channel} {f d : Nat} : c.rejoins f d = true ↔ c.state = .lagging ∧ c.ready f d = true := by
  simp [Channel.rejoins]

theorem Channel.lostAt_iff {c : Channel} {f depth : Nat} : c.lostAt f depth = true ↔
    (c.state = .settling ∨ c.state = .lagging ∨ c.state = .muted) ∧
      ∃ r, c.cond = some r ∧ ((∃ k, r.completeThrough = some k ∧ k + depth < 16 * f) ∨
        (r.completeThrough = none ∧ r.restartTick + depth < 16 * f + 1)) := by
  rw [Channel.lostAt, Bool.and_eq_true, Bool.or_eq_true, Bool.or_eq_true, beq_iff_eq, beq_iff_eq, beq_iff_eq, or_assoc]
  refine and_congr_right fun _ => ?_
  cases hc : c.cond with
  | none => simp
  | some r => cases hk : r.completeThrough <;> simp [hk]

/-! ## The awaited set and the due test (R103, R104) -/

section
variable {s : State} {f : Nat}

theorem State.isMember_of_front (hf : s.sched.front = some f) (j : Fin 256) : s.isMember j = (s.chan j).member f := by
  simp only [State.isMember, hf]

theorem State.isMember_of_no_front (hf : s.sched.front = none) (j : Fin 256) : s.isMember j = false := by
  simp only [State.isMember, hf]

theorem State.awaited_eq (hf : s.sched.front = some f) :
    s.awaited = ((List.finRange 256).filter fun j => s.isMember j).map fun j => (j, s.chan j) := by
  have hmember : (fun j => s.isMember j) = fun j => (s.chan j).member f := funext (State.isMember_of_front hf)
  rewrite [State.awaited, hf, hmember, enumFin_eq_map]
  exact List.filter_map

theorem State.readyMembers_eq (hf : s.sched.front = some f) :
    s.readyMembers = ((List.finRange 256).filter fun j => s.isMember j && (s.chan j).ready f s.banks.dMax).map
      fun j => (j, s.chan j) := by
  simp only [State.readyMembers, State.awaited_eq hf, hf, Option.getD_some, List.filter_map, List.filter_filter,
    Function.comp_def, Bool.and_comm]

theorem State.unreadyMembers_eq (hf : s.sched.front = some f) :
    s.unreadyMembers = ((List.finRange 256).filter fun j => s.isMember j && !(s.chan j).ready f s.banks.dMax).map
      fun j => (j, s.chan j) := by
  simp only [State.unreadyMembers, State.awaited_eq hf, hf, Option.getD_some, List.filter_map, List.filter_filter,
    Function.comp_def, Bool.and_comm]

theorem State.mem_laggards (hf : s.sched.front = some f) {j : Fin 256} :
    j ∈ s.unreadyMembers.map (fun e => e.1) ↔ s.isMember j = true ∧ (s.chan j).ready f s.banks.dMax = false := by
  simp [State.unreadyMembers_eq hf]

theorem State.unready_isEmpty_iff (hf : s.sched.front = some f) :
    s.unreadyMembers.isEmpty = true ↔ ∀ j, s.isMember j = true → (s.chan j).ready f s.banks.dMax = true := by
  rw [List.isEmpty_iff, ← List.map_eq_nil_iff (f := fun e : Fin 256 × Channel => e.1), List.eq_nil_iff_forall_not_mem]
  simp only [State.mem_laggards hf, not_and, Bool.not_eq_false]

theorem State.due_iff (hf : s.sched.front = some f) :
    s.due = true ↔ ∃ j, (s.chan j).makesDue f s.banks.dMax = true := by
  simp only [State.due, hf, toList_eq_map, List.any_map, List.any_eq_true, List.mem_finRange, true_and, Function.comp_def]
  rfl

theorem State.dueBy_of_front (hf : s.sched.front = some f) (j : Fin 256) :
    s.dueBy j = (s.chan j).makesDue f s.banks.dMax := by
  simp only [State.dueBy, hf]

/-! ## The settling of blind windows (R110) -/

theorem State.blindWindow_of_no_window (h : s.sched.window = none) : s.blindWindow = none := by
  simp [State.blindWindow, h]

theorem State.settle_of_no_blind (h : s.blindWindow = none) : s.settle = s := by
  simp only [State.settle, runBlind, h]

theorem State.settle_of_no_window (h : s.sched.window = none) : s.settle = s :=
  State.settle_of_no_blind (State.blindWindow_of_no_window h)

/-! ## The start of a stacking (R106, R108, R110) -/

/-- The window that a stacking of the front window `f` forms. -/
def State.frontWindow (s : State) (f : Nat) : Window :=
  ⟨f, s.readyMembers.map fun e => (e.1, e.2.weightInForce), s.banks.activeSerial, s.banks.dMax,
    decide (s.readyMembers.length < s.param .smin)⟩

theorem State.startStacking_eq (hf : s.sched.front = some f) :
    s.startStacking = { s.reportLaggards f (s.unreadyMembers.map fun e => e.1) with
      sched := { s.sched with state := .stacking, timer := none, window := some (s.frontWindow f) } } := by
  have hwindow : s.newWindow f (contributorsOf s.readyMembers) = s.frontWindow f := by
    simp [State.newWindow, contributorsOf, countOf, State.frontWindow]
  simp only [State.startStacking, hf, State.reportLaggards_sched, hwindow]

theorem State.startStacking_sched (hf : s.sched.front = some f) : s.startStacking.sched =
    { s.sched with state := .stacking, timer := none, window := some (s.frontWindow f) } := by
  rw [State.startStacking_eq hf]

/-- A window with contributors enough is left to the engine. -/
theorem State.settle_startStacking (hf : s.sched.front = some f) (hs : s.param .smin ≤ s.readyMembers.length) :
    s.startStacking.settle = s.startStacking := by
  refine State.settle_of_no_blind ?_
  rw [State.blindWindow, State.startStacking_sched hf]
  simp [State.frontWindow, hs]

theorem State.blindWindow_startStacking (hf : s.sched.front = some f) (hs : s.readyMembers.length < s.param .smin) :
    s.startStacking.blindWindow = some (s.frontWindow f) := by
  rw [State.blindWindow, State.startStacking_sched hf]
  simp [State.frontWindow, hs]

/-- The laggards reported in some order, and the STALL entry. -/
theorem State.reportLaggards_eq (s : State) (f : Nat) (laggards : List (Fin 256)) :
    ∃ (l : List (Fin 256)) (o : List Nat), l.Perm laggards ∧ s.reportLaggards f laggards =
      if l = [] then l.foldl (fun (t : State) j => t.moveFrom j .live .lagging) { s with order := o }
      else (l.foldl (fun (t : State) j => t.moveFrom j .live .lagging) { s with order := o }).offer (.stall f l.length) := by
  obtain ⟨l, o, hl, he⟩ := s.each_eq laggards fun s j => s.moveFrom j .live .lagging
  refine ⟨l, o, hl, ?_⟩
  have hnil : laggards.isEmpty = true ↔ l = [] := by
    rw [List.isEmpty_iff, ← List.length_eq_zero_iff, ← hl.length_eq, List.length_eq_zero_iff]
  rw [State.reportLaggards, he, hl.length_eq]
  simp only [hnil]

end

/-! ## Channels moved (R33 to R35) -/

theorem State.moveFrom_chan (s : State) (j i : Fin 256) (old dest : ChanState) :
    (s.moveFrom j old dest).chan i =
      if i = j ∧ (s.chan j).state = old then { s.chan j with state := dest, changed := true } else s.chan i := by
  unfold State.moveFrom
  by_cases ho : (s.chan j).state = old
  · rw [if_pos ho]
    by_cases hij : i = j
    · subst hij
      simp [State.moveChan, ho]
    · simp [State.moveChan, State.setChan_chan, hij, Ne.symm hij]
  · simp [ho]

/-- Channels moved one after another out of a state that no move leads to: each is moved once. -/
theorem State.foldl_moveFrom_chan {old dest : ChanState} (hne : dest ≠ old) (l : List (Fin 256)) (s : State) (i : Fin 256) :
    (l.foldl (fun (t : State) j => t.moveFrom j old dest) s).chan i =
      if i ∈ l ∧ (s.chan i).state = old then { s.chan i with state := dest, changed := true } else s.chan i := by
  induction l generalizing s with
  | nil => simp
  | cons j l ih =>
    rw [List.foldl_cons, ih, State.moveFrom_chan]
    by_cases hij : i = j
    · subst hij
      by_cases ho : (s.chan i).state = old <;> simp [ho, hne]
    · simp [hij]

/-- The fields of a channel that the supervisor's moves at an advance leave alone. -/
structure Channel.SameStore (c d : Channel) : Prop where
  weight : d.weightInForce = c.weightInForce
  ring : d.ring = c.ring
  alarms : d.alarms = c.alarms
  cfg : d.cfg = c.cfg

theorem Channel.SameStore.refl (c : Channel) : c.SameStore c := ⟨rfl, rfl, rfl, rfl⟩

theorem Channel.SameStore.trans {c d e : Channel} (h : c.SameStore d) (g : d.SameStore e) : c.SameStore e :=
  ⟨g.weight.trans h.weight, g.ring.trans h.ring, g.alarms.trans h.alarms, g.cfg.trans h.cfg⟩

/-- Every channel keeps those fields, and no channel's record gets further. -/
structure SameStores (s t : State) : Prop where
  store : ∀ j, (s.chan j).SameStore (t.chan j)
  through : ∀ j k, (t.chan j).completeThrough = some k → (s.chan j).completeThrough = some k

theorem SameStores.refl (s : State) : SameStores s s := ⟨fun _ => .refl _, fun _ _ => id⟩

theorem SameStores.trans {s t u : State} (h : SameStores s t) (g : SameStores t u) : SameStores s u :=
  ⟨fun j => (h.store j).trans (g.store j), fun j k hk => h.through j k (g.through j k hk)⟩

theorem SameStores.ofChannels {s t : State} (h : t.channels = s.channels) : SameStores s t := by
  have hchan (j : Fin 256) : t.chan j = s.chan j := congrArg (vget · j) h
  exact ⟨fun j => hchan j ▸ .refl _, fun j k hk => hchan j ▸ hk⟩

theorem SameStores.moveChan (s : State) (j : Fin 256) (dest : ChanState) {u : Channel → Channel}
    (hu : ∀ c : Channel, c.SameStore (u c)) (hk : ∀ (c : Channel) k, (u c).completeThrough = some k → c.completeThrough = some k) :
    SameStores s (s.moveChan j dest u) := by
  have hchan (i : Fin 256) : (s.moveChan j dest u).chan i =
      if i = j then { u (s.chan j) with state := dest, changed := true } else s.chan i := by
    by_cases hij : i = j
    · subst hij
      simp [State.moveChan]
    · simp [State.moveChan, State.setChan_chan, hij, Ne.symm hij]
  refine ⟨fun i => ?_, fun i k h => ?_⟩
  · rw [hchan]
    split
    next hij => subst hij; exact (hu _).trans ⟨rfl, rfl, rfl, rfl⟩
    next => exact .refl _
  · rw [hchan] at h
    split at h
    next hij => subst hij; exact hk _ _ h
    next => exact h

theorem SameStores.moveFrom (s : State) (j : Fin 256) (old dest : ChanState) : SameStores s (s.moveFrom j old dest) := by
  unfold State.moveFrom
  split
  · exact SameStores.moveChan s j dest (fun _ => .refl _) fun _ _ => id
  · exact SameStores.refl s

theorem SameStores.each {α : Type} (s : State) (l : List α) {f : State → α → State} (h : ∀ s a, SameStores s (f s a)) :
    SameStores s (s.each l f) :=
  State.each_keeps (P := SameStores s) l (fun _ _ ht => ht.trans (SameStores.ofChannels rfl))
    (fun t a _ ht => ht.trans (h t a)) s (SameStores.refl s)

theorem SameStores.lostCheck (s : State) (f : Nat) : SameStores s (s.lostCheck f) :=
  SameStores.each s _ fun t j => SameStores.moveChan t j .lost (fun _ => ⟨rfl, rfl, rfl, rfl⟩) fun _ _ h => nomatch h

theorem SameStores.rejoinAll (s : State) (f : Nat) : SameStores s (s.rejoinAll f) :=
  SameStores.each s _ fun t j => SameStores.moveFrom t j .lagging .live

end Sys2Proof.Machine
end

section
/-!
PROOFS. The stack scheduler's events (06): the hold-off's expiry, a completion, the slip, the due and the readiness tests,
and the reports of a channel to the scheduler.
-/

namespace Sys2Proof.Machine

/-! ## The swap at an advance (R94) -/

theorem State.swapDue_iff {s : State} : s.swapDue = true ↔
    s.banks.standbyState = .pending ∧ (s.array = .stopped ∨ (s.sched.window = none ∧ s.trig.state = .idle)) := by
  simp [State.swapDue, State.swapAllowed]

/-- A swap considered changes the banks, the journal and the control ports. -/
theorem State.considerSwap_frame (s : State) : SameRecords { s with banks := s.considerSwap.banks } s.considerSwap := by
  unfold State.considerSwap
  split
  · rw [show s.swapBanks.banks = s.banks.swapped by simp [State.swapBanks]]
    exact (SameRecords.offer _ _).trans (SameRecords.raise _ _ _)
  · exact SameRecords.refl s

/-! ## The due and the readiness tests (R104 to R106) -/

section
variable {s : State} {f : Nat}

theorem State.dueStep_of_not_due (h : ¬s.due = true) : s.dueStep = s := if_neg fun hd => h hd.2

theorem State.dueTest_of_not_due (h : ¬s.due = true) (hw : s.sched.window = none) : s.dueTest = s := by
  rw [State.dueTest, State.dueStep_of_not_due h, State.settle_of_no_window hw]

theorem State.dueTest_of_due (hc : s.sched.state = .collecting) (h : s.due = true) : s.dueTest = s.readyOrHold.settle := by
  rw [State.dueTest, State.dueStep, if_pos ⟨hc, h⟩]

theorem State.not_due (hf : s.sched.front = some f)
    (h : ∀ j k, (s.chan j).state = .settling ∨ (s.chan j).state = .live ∨ (s.chan j).state = .lagging ∨
      (s.chan j).state = .muted → (s.chan j).completeThrough = some k → k < 16 * f + 15 + s.banks.dMax) : ¬s.due = true := by
  rw [State.due_iff hf]
  rintro ⟨j, hj⟩
  obtain ⟨hc, k, hk, hle⟩ := Channel.makesDue_iff.1 hj
  exact absurd (h j k (ChanState.conditioned_iff.1 hc) hk) (not_lt.2 hle)

theorem State.readyOrHold_of_unready (hf : s.sched.front = some f)
    (h : ∃ j, s.isMember j = true ∧ (s.chan j).ready f s.banks.dMax = false) (hh : s.param .holdOff ≠ 0) :
    s.readyOrHold = s.startHolding := by
  refine if_neg ?_
  rw [State.unready_isEmpty_iff hf, not_or]
  obtain ⟨j, hm, hr⟩ := h
  exact ⟨fun hall => absurd (hall j hm) (by simp [hr]), hh⟩

theorem State.readyOrHold_of_ready (hf : s.sched.front = some f)
    (h : (∀ j, s.isMember j = true → (s.chan j).ready f s.banks.dMax = true) ∨ s.param .holdOff = 0) :
    s.readyOrHold = s.startStacking := if_pos (h.imp_left (State.unready_isEmpty_iff hf).2)

theorem State.holdingTest_of_ready (hs : s.sched.state = .holding) (hf : s.sched.front = some f)
    (h : ∀ j, s.isMember j = true → (s.chan j).ready f s.banks.dMax = true) : s.holdingTest = s.startStacking.settle :=
  if_pos ⟨hs, (State.unready_isEmpty_iff hf).2 h⟩

theorem State.holdingTest_of_unready (hf : s.sched.front = some f)
    (h : ∃ j, s.isMember j = true ∧ (s.chan j).ready f s.banks.dMax = false) : s.holdingTest = s := by
  refine if_neg fun ⟨_, hall⟩ => ?_
  obtain ⟨j, hm, hr⟩ := h
  exact absurd ((State.unready_isEmpty_iff hf).1 hall j hm) (by simp [hr])

end

/-! ## The expiry of the hold-off (R108, R110) -/

theorem State.reportLaggards_frame (s : State) (f : Nat) (laggards : List (Fin 256)) :
    SameButChannels s (s.reportLaggards f laggards) := by
  have h := SameButChannels.each s laggards (f := fun s j => s.moveFrom j .live .lagging)
    fun t j => SameButChannels.moveFrom t j _ _
  unfold State.reportLaggards
  dsimp only
  split
  · exact h
  · exact h.trans (SameButChannels.offer _ _)

/-- The laggards are LAGGING, and nothing else of a channel changes but its changed flag. -/
theorem State.startStacking_chan {s : State} {f : Nat} (hf : s.sched.front = some f) (j : Fin 256) :
    s.startStacking.chan j = if s.isMember j = true ∧ (s.chan j).ready f s.banks.dMax = false then
      { s.chan j with state := .lagging, changed := true } else s.chan j := by
  obtain ⟨l, o, hl, he⟩ := s.reportLaggards_eq f (s.unreadyMembers.map fun e => e.1)
  have hchan : s.startStacking.chan j =
      (l.foldl (fun (t : State) j => t.moveFrom j .live .lagging) { s with order := o }).chan j := by
    rw [State.startStacking_eq hf, he]
    show State.chan (ite _ _ _) j = _
    split
    · rfl
    · rw [State.offer_chan]
  have hlive : s.isMember j = true → (s.chan j).state = .live := fun hm => by
    rw [State.isMember_of_front hf, Channel.member_iff] at hm
    exact hm.1
  have hmem : (j ∈ l ∧ (s.chan j).state = .live) ↔ s.isMember j = true ∧ (s.chan j).ready f s.banks.dMax = false := by
    rw [hl.mem_iff, State.mem_laggards hf]
    exact ⟨fun h => h.1, fun h => ⟨h, hlive h.1⟩⟩
  rw [hchan, State.foldl_moveFrom_chan (by decide)]
  exact if_congr hmem rfl rfl

theorem holdOffRunsOut_of_holding {s : State} (h : s.sched.state = .holding) : holdOffRunsOut s = s.startStacking.settle :=
  if_pos h

/-- The front after a blind window: past it. -/
theorem State.settle_front_of_blind {s : State} {w : Window} (hok : SchedOk s) (hb : s.blindWindow = some w) :
    ∃ g, s.settle.sched.front = some g ∧ w.window < g := by
  have hw := State.blindWindow_window hb
  have hstep : s.settle = runBlind (s.newestTick / 16 + 3 - s.sched.front.getD 0)
      (s.complete w (s.windowResult w)).dueStep := by
    simp only [State.settle, runBlind, hb]
  have hres := (State.takeResult_frame s (s.windowResult w)).sched
  have hok1 : SchedOk (s.takeResult (s.windowResult w)) := ((Keeps.takeResult s _).sched hok).1
  have hfront : (s.takeResult (s.windowResult w)).sched.front = some w.window := by
    rw [hres]
    exact hok.named w hw
  have hat := Keeps.frontAt (s.takeResult (s.windowResult w)) (w.window + 1) (fun h => h.running hfront) fun _ g hg => by
    rw [hfront] at hg
    exact (Option.some.inj hg).ge.trans (Nat.le_succ _)
  have hrest : Keeps ((s.takeResult (s.windowResult w)).frontAt (w.window + 1)) s.settle := by
    rw [hstep]
    exact (((((Keeps.advanced _ _).trans (Keeps.considerSwap _)).trans (Keeps.takeSlips _)).trans (Keeps.dueStep _)).trans
      (Keeps.runBlind _ _))
  obtain ⟨g, hg, hle⟩ := (hrest.sched (hat.sched hok1).1).2 (w.window + 1) rfl
  exact ⟨g, hg, hle⟩

/-! ## A completion (R115) -/

theorem State.takeSlips_of_none {s : State} (h : s.sched.slips = []) : s.takeSlips = s := by
  rw [State.takeSlips, h, List.foldl_nil]

theorem stackCompletes_eq {s : State} {w : Window} (hw : s.sched.window = some w) :
    stackCompletes s = s.sched.slips.foldl (fun t r => t.deliverReleased r.port)
      (s.complete w (s.windowResult w)).dueTest := by
  simp only [stackCompletes, hw, List.foldl_map]

theorem SameButChannels.lostCheck (s : State) (f : Nat) : SameButChannels s (s.lostCheck f) :=
  SameButChannels.each s _ fun t j => SameButChannels.moveChan t j .lost Channel.discard

theorem SameButChannels.rejoinAll (s : State) (f : Nat) : SameButChannels s (s.rejoinAll f) :=
  SameButChannels.each s _ fun t j => SameButChannels.moveFrom t j .lagging .live

theorem SameButChannels.advanced (s : State) (f : Nat) : SameButChannels s.takeWeights (s.advanced f) :=
  (SameButChannels.lostCheck s.takeWeights f).trans (SameButChannels.rejoinAll _ f)

theorem SameStores.advanced (s : State) (f : Nat) : SameStores s.takeWeights (s.advanced f) :=
  (SameStores.lostCheck s.takeWeights f).trans (SameStores.rejoinAll _ f)

/-- What a completion ahead of the slips leaves: the front moved on, the tables kept, the weights in force taken. -/
structure State.CompletedBy (s : State) (w : Window) (r : WindowResult) (t : State) : Prop where
  sched : t.sched = ⟨some (w.window + 1), .collecting, none, none, s.sched.slips⟩
  chan : ∀ j, (t.chan j).weightInForce = (s.chan j).cfg.weight ∧ (t.chan j).ring = (s.chan j).ring ∧
    (t.chan j).alarms = (s.chan j).alarms ∧ (t.chan j).cfg = (s.chan j).cfg
  through : ∀ j k, (t.chan j).completeThrough = some k → (s.chan j).completeThrough = some k
  trig : t.trig = (s.trig.take s.params r).trig
  params : t.params = s.params
  ports : t.ports = s.ports
  hubs : t.hubs = s.hubs
  zones : t.zones = s.zones
  array : t.array = s.array

theorem State.completedBy (s : State) (w : Window) (r : WindowResult) :
    s.CompletedBy w r (((s.takeResult r).frontAt (w.window + 1)).advanced (w.window + 1)).considerSwap := by
  have h1 := State.takeResult_frame s r
  generalize s.takeResult r = a at h1
  have hbut := SameButChannels.advanced (a.frontAt (w.window + 1)) (w.window + 1)
  have hstore := SameStores.advanced (a.frontAt (w.window + 1)) (w.window + 1)
  have hsched : (a.frontAt (w.window + 1)).takeWeights.sched = ⟨some (w.window + 1), .collecting, none, none, s.sched.slips⟩ :=
    congrArg (fun x : Sched => (⟨some (w.window + 1), .collecting, none, none, x.slips⟩ : Sched)) h1.sched
  have hchan (j : Fin 256) : (a.frontAt (w.window + 1)).takeWeights.chan j =
      { s.chan j with weightInForce := (s.chan j).cfg.weight } := by
    rw [State.takeWeights, State.chan, vget_vmap]
    exact congrArg (fun v => { vget v j with weightInForce := (vget v j).cfg.weight }) h1.channels
  generalize (a.frontAt (w.window + 1)).advanced (w.window + 1) = x at hbut hstore
  have hswap := State.considerSwap_frame x
  have hlast (j : Fin 256) : x.considerSwap.chan j = x.chan j := congrArg (vget · j) hswap.channels
  refine ⟨?_, fun j => ?_, fun j k hk => ?_, ?_, ?_, ?_, ?_, ?_, ?_⟩
  · exact hswap.sched.trans (hbut.sched.trans hsched)
  · have hj := hstore.store j
    rw [hlast]
    rw [hchan] at hj
    exact ⟨hj.weight, hj.ring, hj.alarms, hj.cfg⟩
  · rw [hlast] at hk
    have hj := hstore.through j k hk
    rwa [hchan] at hj
  · exact hswap.trig.trans (hbut.trig.trans h1.trig)
  · exact hswap.params.trans (hbut.params.trans h1.params)
  · exact hswap.ports.trans (hbut.ports.trans h1.ports)
  · exact hswap.hubs.trans (hbut.hubs.trans h1.hubs)
  · exact hswap.zones.trans (hbut.zones.trans h1.zones)
  · exact hswap.array.trans (hbut.array.trans h1.array)

/-- A completion after which no window is due. -/
theorem stackCompletes_of_not_due {s : State} {w : Window} (hw : s.sched.window = some w) (hs : s.sched.slips = [])
    (hk : ∀ j k, (s.chan j).completeThrough = some k → k < 16 * (w.window + 1) + 15) :
    s.CompletedBy w (s.windowResult w) (stackCompletes s) := by
  have h := s.completedBy w (s.windowResult w)
  have hsched := h.sched
  rw [stackCompletes_eq hw, hs, List.foldl_nil, State.complete, State.takeSlips_of_none (by rw [hsched]; exact hs),
    State.dueTest_of_not_due ?_ (by rw [hsched])]
  · exact h
  · refine State.not_due (by rw [hsched]) fun j k _ hjk => ?_
    exact (hk j k (h.through j k hjk)).trans_le (Nat.le_add_right _ _)

/-! ## The slip (R118, R119) -/

theorem FieldPort.handlingHeader_eq (x : FieldPort) : x.handlingHeader = match x.handling with
    | some h => headerOfBody h.body
    | none => ⟨none, none, none, none, none, none, none⟩ := rfl

theorem State.takeSlip_of_front {s : State} {f : Nat} (hf : s.sched.front = some f) (r : SlipReq) :
    s.takeSlip r = if f < slipTarget r.lastTick then (s.endSlipWait r.port).slipFront r.port f (slipTarget r.lastTick)
      else s.endSlipWait r.port := by
  have hf' : (s.endSlipWait r.port).sched.front = some f := hf
  simp only [State.takeSlip, hf']

/-! ## The reports of a channel (R34, R101, R105) -/

theorem State.scheduleReport_of_unset {s : State} (h : s.sched.state = .unset) (j : Fin 256) (k : Nat) :
    s.scheduleReport j k = if s.array = .running then
      ({ s with sched := { s.sched with front := some (k / 16), state := .collecting } } : State).dueTest else s := by
  simp only [State.scheduleReport, h]

theorem State.scheduleReport_of_collecting {s : State} (h : s.sched.state = .collecting) (j : Fin 256) (k : Nat) :
    s.scheduleReport j k = if s.dueBy j = true then s.readyOrHold.settle else s := by
  simp only [State.scheduleReport, h]

theorem State.scheduleReport_of_holding {s : State} (h : s.sched.state = .holding) (j : Fin 256) (k : Nat) :
    s.scheduleReport j k = if s.isMember j = true then s.holdingTest else s := by
  simp only [State.scheduleReport, h]

theorem State.scheduleReport_of_stacking {s : State} (h : s.sched.state = .stacking) (j : Fin 256) (k : Nat) :
    s.scheduleReport j k = s := by
  simp only [State.scheduleReport, h]

theorem State.rejoinTest_of_front {s : State} {f : Nat} (hf : s.sched.front = some f) (j : Fin 256) :
    s.rejoinTest j = if (s.chan j).rejoins f s.banks.dMax = true then s.notified j fun s => s.moveFrom j .lagging .live
      else s := by
  simp only [State.rejoinTest, hf]

/-- Settles O48: each event of the scheduler through its equation. -/
theorem windows : Obligations.Windows := by
  refine ⟨?holdOff, ?blind, ?start, ?completion, ?steps, fun s f => ⟨?lost, ?rejoin⟩, ?swap, ?slip, ?tests, ?reports,
    fun s j => ⟨fun hf => State.isMember_of_no_front hf j, fun f hf => ?member⟩, fun c w d => Channel.ready_iff,
    fun s f hf => ⟨State.readyMembers_eq hf, State.unreadyMembers_eq hf⟩⟩
  case holdOff =>
    intro s f hr hs hf hmin
    have hbut := s.reportLaggards_frame f (s.unreadyMembers.map fun e => e.1)
    refine ⟨s.startStacking, ?_, rfl, ?_, fun j => ?_, fun j => ?_, ?_⟩
    · rw [exec_out (f := holdOffRunsOut) rfl hr, holdOffRunsOut_of_holding hs, State.settle_startStacking hf hmin]
    · rw [State.startStacking_sched hf, State.frontWindow, decide_eq_false (not_lt.2 hmin)]
    · rw [State.startStacking_chan hf]
      split <;> rfl
    · rw [State.startStacking_chan hf]
      split <;> exact ⟨rfl, rfl, rfl, rfl, rfl⟩
    · rw [State.startStacking_eq hf]
      exact ⟨hbut.params, hbut.ports, hbut.hubs, hbut.banks, hbut.trig, hbut.zones, hbut.queue, hbut.alert, hbut.plant,
        hbut.array⟩
  case blind =>
    intro s f hok hr hs hf hmin
    obtain ⟨g, hg, hlt⟩ := State.settle_front_of_blind ((Keeps.startStacking s).sched hok).1
      (State.blindWindow_startStacking hf hmin)
    refine ⟨s.startStacking.settle, g, ?_, hg, hlt⟩
    rw [exec_out (f := holdOffRunsOut) rfl hr, holdOffRunsOut_of_holding hs]
  case start =>
    intro s f hf
    obtain ⟨l, o, hl, he⟩ := s.reportLaggards_eq f (s.unreadyMembers.map fun e => e.1)
    refine ⟨l, o, _, hl, rfl, ?_⟩
    rewrite [State.startStacking_eq hf, he]
    rfl
  case completion =>
    intro s w hr hw hs hk
    have h := stackCompletes_of_not_due hw hs hk
    refine ⟨stackCompletes s, exec_out (f := stackCompletes) rfl hr, ?_, h.chan, h.trig, h.params, h.ports, h.hubs, h.zones,
      h.array⟩
    rw [h.sched, hs]
  case steps =>
    intro s w t1 t2 t3 t4 hr hw h1 h2 h3 h4
    have hcomplete : s.complete w (s.windowResult w) = t4 := by
      have h2' : t2 = ((s.takeResult (s.windowResult w)).frontAt (w.window + 1)).takeWeights := by
        rewrite [h2, h1]
        rfl
      rw [State.complete, State.advanced, ← h2', ← h3, State.takeSlips, h4]
    rewrite [exec_out (f := stackCompletes) rfl hr, stackCompletes_eq hw, hcomplete]
    rfl
  case lost =>
    obtain ⟨l, o, hl, he⟩ := s.each_eq (s.channelsWith fun c => c.lostAt f (s.param .lostDepth))
      fun s j => s.moveChan j .lost Channel.discard
    refine ⟨l, o, hl.nodup_iff.2 (s.nodup_channelsWith _), fun j => ?_, he⟩
    rw [hl.mem_iff, State.mem_channelsWith, Channel.lostAt_iff]
  case rejoin =>
    obtain ⟨l, o, hl, he⟩ := s.each_eq (s.channelsWith fun c => c.rejoins f s.banks.dMax)
      fun s j => s.moveFrom j .lagging .live
    refine ⟨l, o, hl.nodup_iff.2 (s.nodup_channelsWith _), fun j => ?_, he⟩
    rw [hl.mem_iff, State.mem_channelsWith, Channel.rejoins_iff, Channel.ready_iff]
  case swap =>
    intro s serial
    refine ⟨fun hp hor => if_pos (State.swapDue_iff.2 ⟨hp, hor⟩), fun hor => if_neg fun hd => ?_, ?_⟩
    · obtain ⟨hp, ha⟩ := State.swapDue_iff.1 hd
      rcases hor with h | ⟨h1, h2⟩
      · exact h hp
      · rcases ha with ha | ⟨hw, hi⟩
        · exact h1 ha
        · exact h2.elim (fun h => h hw) fun h => h hi
    · rintro rfl
      rfl
  case slip =>
    intro s r f g t0 t1 t2 t3 hf hg h0
    have hg' : g = slipTarget r.lastTick := hg
    have h0' : s.endSlipWait r.port = t0 := h0.symm
    rw [State.takeSlip_of_front hf, ← hg', h0']
    refine ⟨fun hle => if_neg (not_lt.2 hle), fun hlt h1 h2 h3 => ?_⟩
    have h3' : t3 = ((t1.frontAt g).offer (.slip f (g - f))).advanced g := by
      rewrite [h3, h2]
      rfl
    rewrite [if_pos hlt, State.slipFront, ← h1, ← h3', FieldPort.handlingHeader_eq]
    rfl
  case tests =>
    intro s f hf hw
    refine ⟨fun hc => ⟨fun hno => State.dueTest_of_not_due (State.not_due hf hno) hw, fun ⟨j, k, hj, hk, hle⟩ => ?_⟩,
      fun hh => ⟨State.holdingTest_of_unready hf, fun hall hmin => ?_⟩⟩
    · have hdue : s.due = true :=
        (State.due_iff hf).2 ⟨j, Channel.makesDue_iff.2 ⟨ChanState.conditioned_iff.2 hj, k, hk, hle⟩⟩
      rw [State.dueTest_of_due hc hdue]
      refine ⟨fun hun hh => ?_, fun hor hmin => ?_⟩
      · rewrite [State.readyOrHold_of_unready hf hun hh, State.settle_of_no_window (s := s.startHolding) hw]
        rfl
      · rw [State.readyOrHold_of_ready hf hor, State.settle_startStacking hf hmin]
    · rw [State.holdingTest_of_ready hh hf hall, State.settle_startStacking hf hmin]
  case reports =>
    intro s j k
    refine ⟨fun hu ha => ?_, fun hu ha => ?_, fun hh => State.scheduleReport_of_holding hh j k,
      fun hs => State.scheduleReport_of_stacking hs j k, fun f c hs hf hc => ⟨fun hle hcond => ?_, fun hlt => ?_⟩, ?_⟩
    · rw [State.scheduleReport_of_unset hu, if_pos ha]
    · rw [State.scheduleReport_of_unset hu, if_neg ha]
    · have hj := Channel.makesDue_iff.2 ⟨ChanState.conditioned_iff.2 hcond, c, hc, hle⟩
      rw [State.scheduleReport_of_collecting hs, State.dueBy_of_front hf, if_pos hj,
        State.dueTest_of_due hs ((State.due_iff hf).2 ⟨j, hj⟩)]
    · rw [State.scheduleReport_of_collecting hs, State.dueBy_of_front hf, if_neg]
      intro hj
      obtain ⟨-, c', hc', hle⟩ := Channel.makesDue_iff.1 hj
      rw [hc] at hc'
      cases hc'
      omega
    · rintro f hf t rfl
      rw [State.rejoinTest_of_front hf]
      refine ⟨fun hr => ?_, fun hr => if_neg (by simp [hr])⟩
      rw [if_pos hr, State.notified_eq]
  case member =>
    rw [State.isMember_of_front hf, Channel.member_iff]

end Sys2Proof.Machine
end

section
/-!
PROOFS. Ingest (03): the header of a frame, the handling of a frame case by case, the write limit, the samples as they reach
the channels, and the restarts and reports that they lead to.
-/

namespace Sys2Proof.Machine

/-! ## The header and the hub of a frame (R49, R50) -/

theorem samplesHeader?_iff {body : List Byte} {h : SamplesHeader} : samplesHeader? body = some h ↔
    field body 0 1 = 1 ∧ 16 ≤ body.length ∧ (1 ≤ h.samples ∧ h.samples ≤ 32) ∧ (1 ≤ h.channels ∧ h.channels ≤ 64) ∧
      body.length = 16 + 3 * h.samples * h.channels ∧
      h = ⟨field body 1 1, field body 3 2, field body 5 6, field body 11 1, field body 12 1⟩ := by
  rw [samplesHeader?, Option.ite_none_right_eq_some]
  constructor
  · rintro ⟨⟨hcls, hlen, hs, hc, hbody⟩, he⟩
    obtain rfl := Option.some.inj he
    exact ⟨hcls, hlen, hs, hc, hbody, rfl⟩
  · rintro ⟨hcls, hlen, hs, hc, hbody, rfl⟩
    exact ⟨⟨hcls, hlen, hs, hc, hbody⟩, rfl⟩

/-- A body with a header fits a frame of a field port. -/
theorem samplesHeader?_length {body : List Byte} {h : SamplesHeader} (hh : samplesHeader? body = some h) :
    1 ≤ body.length ∧ body.length ≤ 8192 := by
  obtain ⟨-, hlo, ⟨-, hs⟩, ⟨-, hc⟩, hlen, -⟩ := samplesHeader?_iff.1 hh
  have hmul : h.samples * h.channels ≤ 32 * 64 := Nat.mul_le_mul hs hc
  rw [Nat.mul_assoc] at hlen
  omega

theorem State.hubFor_of_hub {s : State} {p : FPort} {g : Fin 16} (hv : (s.hub g).valid = true) (hp : (s.hub g).port = p.val) :
    s.hubFor p g.val = some g := by
  simp [State.hubFor, hv, hp]

theorem State.hubFor_of_other {s : State} {p : FPort} {g : Fin 16} (h : (s.hub g).valid = false ∨ (s.hub g).port ≠ p.val) :
    s.hubFor p g.val = none := by
  rcases h with h | h <;> simp [State.hubFor, h]

theorem State.hubFor_large (s : State) (p : FPort) {id : Nat} (h : 15 < id) : s.hubFor p id = none := dif_neg (by omega)

/-! ## The handling of a frame, case by case -/

section
variable {s : State} {p : FPort} {body : List Byte}

theorem State.handleFrame_of_bad_form (hh : (s.port p).handling = some ⟨body, none⟩) (hb : samplesHeader? body = none) :
    s.handleFrame p = s.discardFrame p body .frameForm := by
  simp only [State.handleFrame, hh, hb]

theorem State.handleFrame_of_no_hub {h : SamplesHeader} (hh : (s.port p).handling = some ⟨body, none⟩)
    (hb : samplesHeader? body = some h) (hg : s.hubFor p h.hubId = none) :
    s.handleFrame p = s.discardFrame p body .hubUnknown := by
  simp only [State.handleFrame, hh, hb, hg]

theorem State.handleFrame_of_hub {h : SamplesHeader} {g : Fin 16} (hh : (s.port p).handling = some ⟨body, none⟩)
    (hb : samplesHeader? body = some h) (hg : s.hubFor p h.hubId = some g) :
    s.handleFrame p = if h.channels ≠ (s.hub g).count then s.discardFrame p body .shape
      else if s.array = .running then s.continuity p g h body else s.endHandling p := by
  simp only [State.handleFrame, hh, hb, hg]

theorem State.checkSequence_of_some {q : Nat} {g : Fin 16} {h : SamplesHeader} (hq : (s.hub g).expSeq = some q) :
    s.checkSequence p g h body = if h.sequence = q then s else s.logError p .sequence (headerOfBody body) := by
  simp only [State.checkSequence, hq]

theorem State.checkSequence_of_none {g : Fin 16} {h : SamplesHeader} (hq : (s.hub g).expSeq = none) :
    s.checkSequence p g h body = s := by
  simp only [State.checkSequence, hq]

/-- An error logged changes no hub and no channel. -/
theorem State.logError_frame (k : ErrKind) (h : HeaderLog) :
    (s.logError p k h).hubs = s.hubs ∧ (s.logError p k h).channels = s.channels := by
  rw [State.logError_eq]
  unfold State.loggedError
  split <;> split <;> simp [State.stopPort]

theorem State.checkSequence_hub (g g' : Fin 16) (h : SamplesHeader) : (s.checkSequence p g h body).hub g' = s.hub g' := by
  unfold State.checkSequence
  split
  · split
    · rfl
    · exact congrArg (vget · g') (State.logError_frame _ _).1
  · rfl

theorem State.logClass_hub (cls : PacketClass) (g : Fin 16) : (s.logClass p cls body).hub g = s.hub g := by
  unfold State.logClass
  split
  · exact congrArg (vget · g) (State.logError_frame _ _).1
  · rfl

/-- The continuity check, the state after its two errors given. -/
theorem State.continuity_eq {g : Fin 16} {h : SamplesHeader} {u : State}
    (hu : u = (s.checkSequence p g h body).logClass p (classOf (s.hub g).expAsn (s.param .gapFill) h.asn) body) :
    s.continuity p g h body =
      if (classOf (s.hub g).expAsn (s.param .gapFill) h.asn).dropped h.asn h.samples = true then u.endHandling p
      else ((((u.setHub g { s.hub g with
        expSeq := some ((h.sequence + 1) % 65536), expAsn := some (h.asn + h.samples) }).setPort p
        { u.port p with handling := some ⟨body, some ⟨(s.hub g).base, (s.hub g).count, h.asn, h.samples,
          classOf (s.hub g).expAsn (s.param .gapFill) h.asn⟩⟩ }).restartRun ⟨(s.hub g).base, (s.hub g).count, h.asn, h.samples,
          classOf (s.hub g).expAsn (s.param .gapFill) h.asn⟩).limitThenDeliver p ⟨(s.hub g).base, (s.hub g).count, h.asn,
          h.samples, classOf (s.hub g).expAsn (s.param .gapFill) h.asn⟩) := by
  have hhub : u.hub g = s.hub g := by
    rw [hu, State.logClass_hub, State.checkSequence_hub]
  simp only [State.continuity, ← hu, State.takePacket, hhub]

/-! ## Places of a port (R48) -/

theorem State.promote_of_waiting (hh : (s.port p).handling = none) (hw : (s.port p).waiting = some body) :
    s.promote p = (s.setPort p { s.port p with handling := some ⟨body, none⟩, waiting := none }).handleFrame p := by
  simp only [State.promote, hh, hw]

theorem State.promote_of_nothing (h : (s.port p).handling ≠ none ∨ (s.port p).waiting = none) : s.promote p = s := by
  unfold State.promote
  dsimp only
  split
  next hh hw => exact absurd hw (h.resolve_left (fun hn => hn hh) ▸ nofun)
  next => rfl
  next => rfl

theorem State.offerFrame_of_empty (hh : (s.port p).handling = none) (body : List Byte) :
    s.offerFrame p body = ((s.setPort p { s.port p with handling := some ⟨body, none⟩ }).handleFrame p).promote p := by
  simp only [State.offerFrame, hh]

theorem State.offerFrame_of_waiting {h : Handling} (hh : (s.port p).handling = some h) (hw : (s.port p).waiting = none)
    (body : List Byte) : s.offerFrame p body = s.setPort p { s.port p with waiting := some body } := by
  simp only [State.offerFrame, hh, hw]

theorem State.offerFrame_of_full {h : Handling} (hh : (s.port p).handling = some h) (hw : (s.port p).waiting ≠ none)
    (body : List Byte) : s.offerFrame p body = s.logError p .receiveOverflow (headerOfBody body) := by
  obtain ⟨w, hw⟩ := Option.ne_none_iff_exists'.1 hw
  simp only [State.offerFrame, hh, hw]

/-! ## The line (R46) -/

theorem State.rxEvent_of_not_listens (h : (s.port p).listens = false) (e : RxEvent) : s.rxEvent p e = s :=
  if_neg (by simp [h])

theorem State.rxEvent_of_listens (h : (s.port p).listens = true) (e : RxEvent) : s.rxEvent p e = match e with
    | .start => s.setPort p (s.port p).frameStart
    | .badLength len => s.logError p .frameForm (headerOf len [])
    | .badCrc len body => s.logError p .frameCheck (headerOf len body)
    | .good body => s.offerFrame p body := by
  cases e <;> exact if_pos h

theorem lineBytes_of_feed (h : (s.port p).listens = true) {bytes : List Byte} {evs : List RxEvent} {rx : Receiver}
    (hf : feed 8192 (s.port p).rx bytes = (evs, rx)) :
    lineBytes p bytes s = (evs.foldl (fun t e => t.rxEvent p e) s).keepReceiver p rx := by
  have hmax : Config.fieldMaxBody = 8192 := rfl
  rw [lineBytes, if_pos h, hmax, hf]

/-! ## The write limit (R64) -/

theorem State.beyondLimit_iff {pk : Packet} : s.beyondLimit pk = true ↔
    ∃ f, s.sched.front = some f ∧ (∃ j ∈ pk.run, (s.chan j).state ≠ .off) ∧ 16 * f + 696 ≤ pk.lastTick := by
  have hspan : Config.writeSpan = 696 := rfl
  cases hf : s.sched.front <;> simp [State.beyondLimit, hf, hspan]

theorem State.limitThenDeliver_of_within {pk : Packet} (h : ¬s.beyondLimit pk = true) :
    s.limitThenDeliver p pk = s.deliverHandled p := if_neg h

theorem State.limitThenDeliver_of_beyond {pk : Packet} (h : s.beyondLimit pk = true) :
    s.limitThenDeliver p pk = if s.sched.state = .stacking then s.holdSlip ⟨p, pk.lastTick⟩
      else (s.slipAtOnce ⟨p, pk.lastTick⟩).deliverHandled p := if_pos h

/-! ## Samples (R60, R63) -/

theorem State.deliverHandled_of_packet {pk : Packet} (h : (s.port p).handling = some ⟨body, some pk⟩) :
    s.deliverHandled p = (s.deliver pk body).endHandling p := by
  simp only [State.deliverHandled, h]

/-- A delivery to channels that are all OFF draws on the order tape and does nothing else. -/
theorem State.deliver_of_off (h : ∀ j, (s.chan j).state = .off) (pk : Packet) (body : List Byte) :
    ∃ o : List Nat, s.deliver pk body = { s with order := o } := by
  refine deliverLoop_keeps (P := fun t => ∃ o : List Nat, t = { s with order := o }) pk body ?_ ?_ _ _ s ⟨s.order, rfl⟩
  · rintro _ o ⟨o', rfl⟩
    exact ⟨o, rfl⟩
  · rintro _ j asn x ⟨o, rfl⟩
    have hj : (({ s with order := o } : State).chan j).state = .off := h j
    exact ⟨o, by simp only [State.sampleIn, hj]⟩

theorem State.condition_of_part {j : Fin 256} {asn : Nat} {x : Option Int} {r : CondRec} (hc : (s.chan j).cond = some r)
    (hasn : asn % 4 ≠ 3) : s.condition j asn x = s.setChan j ((s.chan j).takeSample s.params r asn x).1 := by
  simp only [State.condition, hc, Channel.takeSample_not_last hasn]

theorem State.condition_of_report {j : Fin 256} {asn : Nat} {x : Option Int} {r : CondRec} {rep : TickReport}
    (hc : (s.chan j).cond = some r) (hr : ((s.chan j).takeSample s.params r asn x).2 = some rep) :
    s.condition j asn x = (s.setChan j ((s.chan j).takeSample s.params r asn x).1).report j rep := by
  generalize htake : (s.chan j).takeSample s.params r asn x = c at hr ⊢
  obtain ⟨c1, c2⟩ := c
  subst hr
  simp only [State.condition, hc, htake]

theorem State.reenters_iff {pk : Packet} {asn f : Nat} (hf : s.sched.front = some f) :
    s.reenters pk asn = true ↔ asn = max pk.start pk.asn ∧ 64 * f ≤ asn := by
  simp [State.reenters, hf, Packet.firstMeasured]

end

end Sys2Proof.Machine
end

section
/-!
PROOFS. Frames handled (03): the whole path of a frame on a line to the end of its handling, with the restarts, the limit,
the samples and the reports on the way.
-/

namespace Sys2Proof.Machine

/-! ## Restarts (01, R3; 02, R37) -/

/-- The restart of a channel, its record spelled out. -/
theorem State.restartChan_eq (s : State) (j : Fin 256) (asn : Nat) : s.restartChan j asn =
    ((s.setChan j { s.chan j with
      state := .settling, noisyHold := ⟨false, 0⟩, quietHold := ⟨false, 0⟩, changed := true
      cond := some ⟨none, none, none, none, 0, asn / 4, 2 ^ s.param .kl, none, none⟩ }).raise .survey .channel).offer
      (.channel j (s.chan j).state .settling) := rfl

theorem State.notifiedAll_of_same {s : State} {l : List (Fin 256)} {f : State → State}
    (h : ∀ j ∈ l, (f s).isMember j = s.isMember j) : s.notifiedAll l f = f s :=
  if_pos (List.all_eq_true.2 fun j hj => beq_iff_eq.2 (h j hj))

theorem State.notifiedAll_of_changed {s : State} {l : List (Fin 256)} {f : State → State}
    (h : ∃ j ∈ l, (f s).isMember j ≠ s.isMember j) : s.notifiedAll l f = (f s).holdingTest := by
  obtain ⟨j, hj, hne⟩ := h
  exact if_neg fun hall => hne (beq_iff_eq.1 (List.all_eq_true.1 hall j hj))

theorem State.restartRun_of_first {s : State} {pk : Packet} (h : pk.cls = .first ∨ pk.cls = .jump) :
    s.restartRun pk = s.notifiedAll pk.run fun s => s.restartAll pk.run pk.asn := by
  unfold State.restartRun
  rcases h with h | h <;> rw [h]

theorem State.restartRun_of_other {s : State} {pk : Packet}
    (h : pk.cls = .contiguous ∨ (∃ e, pk.cls = .gap e) ∨ ∃ e, pk.cls = .overlap e) : s.restartRun pk = s := by
  unfold State.restartRun
  rcases h with h | ⟨e, h⟩ | ⟨e, h⟩ <;> rw [h]

/-! ## One good frame of a hub in step, every channel OFF -/

theorem State.endHandling_setPort (s : State) (p : FPort) (x : FieldPort) (o : List Nat) :
    ({ s.setPort p x with order := o } : State).endHandling p =
      { s.setPort p { x with handling := none } with order := o } := by
  simp [State.endHandling, State.setPort, State.port, vset_vset]

/-- A port's record written twice around a hub's: the last one stands. -/
theorem State.setPort_setHub_setPort (s : State) (p : FPort) (g : Fin 16) (x y z : FieldPort) (e : HubEntry)
    (o : List Nat) :
    ({ ((s.setPort p x).setHub g e).setPort p y with order := o } : State).setPort p z =
      { (s.setHub g e).setPort p z with order := o } := by
  simp [State.setPort, State.setHub, vset_vset]

theorem State.order_setPort_port (s : State) (p : FPort) (x : FieldPort) (o : List Nat) :
    ({ s.setPort p x with order := o } : State).port p = x := State.setPort_port_self _ _ _

/-- A body of a hub on its port that follows on what the hub has sent, in RUNNING, while every channel is OFF. -/
structure InStep (s : State) (p : FPort) (g : Fin 16) (body : List Byte) (h : SamplesHeader) : Prop where
  running : s.array = .running
  header : samplesHeader? body = some h
  hubId : h.hubId = g.val
  valid : (s.hub g).valid = true
  port : (s.hub g).port = p.val
  count : (s.hub g).count = h.channels
  sequence : (s.hub g).expSeq = some h.sequence
  asn : (s.hub g).expAsn = some h.asn
  off : ∀ j, (s.chan j).state = .off

/-- The hub's expectations moved past a packet. -/
def HubEntry.past (e : HubEntry) (h : SamplesHeader) : HubEntry :=
  { e with expSeq := some ((h.sequence + 1) % 65536), expAsn := some (h.asn + h.samples) }

section
variable {s : State} {p : FPort} {g : Fin 16} {body : List Byte} {h : SamplesHeader}

theorem InStep.setPort (hs : InStep s p g body h) (x : FieldPort) : InStep (s.setPort p x) p g body h :=
  ⟨hs.running, hs.header, hs.hubId, hs.valid, hs.port, hs.count, hs.sequence, hs.asn, hs.off⟩

/-- A contiguous packet in sequence: no error, no restart, no slip, and nothing delivered. -/
theorem State.continuity_of_step (hs : InStep s p g body h) : ∃ o : List Nat, s.continuity p g h body =
    { (s.setHub g ((s.hub g).past h)).setPort p { s.port p with handling := none } with order := o } := by
  have hcls : classOf (s.hub g).expAsn (s.param .gapFill) h.asn = .contiguous := by
    rw [hs.asn]
    exact if_pos rfl
  have hu : s = (s.checkSequence p g h body).logClass p .contiguous body := by
    rewrite [State.checkSequence_of_some hs.sequence, if_pos rfl]
    rfl
  rw [State.continuity_eq (hcls ▸ hu), hcls, if_neg nofun, State.restartRun_of_other (.inl rfl)]
  generalize (⟨(s.hub g).base, (s.hub g).count, h.asn, h.samples, .contiguous⟩ : Packet) = pk
  generalize ht : (s.setHub g { s.hub g with
    expSeq := some ((h.sequence + 1) % 65536), expAsn := some (h.asn + h.samples) }).setPort p
    { s.port p with handling := some ⟨body, some pk⟩ } = t
  have hport : t.port p = { s.port p with handling := some ⟨body, some pk⟩ } := by rw [← ht, State.setPort_port_self]
  have hoff (j : Fin 256) : (t.chan j).state = .off := by
    rw [← ht]
    exact hs.off j
  obtain ⟨o, ho⟩ := State.deliver_of_off hoff pk body
  refine ⟨o, ?_⟩
  rw [State.limitThenDeliver_of_within ?_, State.deliverHandled_of_packet (by rw [hport]), ho, ← ht]
  · exact State.endHandling_setPort _ _ _ _
  · rw [State.beyondLimit_iff]
    rintro ⟨f, -, ⟨j, -, hj⟩, -⟩
    exact hj (hoff j)

theorem State.handleFrame_of_step (hs : InStep s p g body h) (hh : (s.port p).handling = some ⟨body, none⟩) :
    s.handleFrame p = s.continuity p g h body := by
  have hhub : s.hubFor p h.hubId = some g := by rw [hs.hubId, State.hubFor_of_hub hs.valid hs.port]
  have hcount : ¬h.channels ≠ (s.hub g).count := not_not.2 hs.count.symm
  rw [State.handleFrame_of_hub hh hs.header hhub, if_neg hcount, if_pos hs.running]

/-- A good frame in step: offered to the empty place and handled to its end, nothing waiting behind it. -/
theorem State.offerFrame_of_step (hs : InStep s p g body h) (hh : (s.port p).handling = none)
    (hw : (s.port p).waiting = none) : ∃ o : List Nat, s.offerFrame p body =
      { ((s.setPort p { s.port p with handling := some ⟨body, none⟩ }).setHub g ((s.hub g).past h)).setPort p (s.port p) with
        order := o } := by
  have hport := State.setPort_port_self s p { s.port p with handling := some ⟨body, none⟩ }
  have hlast : ({ s.port p with handling := none } : FieldPort) = s.port p := by rw [← hh]
  obtain ⟨o, ho⟩ := State.continuity_of_step (hs.setPort { s.port p with handling := some ⟨body, none⟩ })
  refine ⟨o, ?_⟩
  rw [State.offerFrame_of_empty hh, State.handleFrame_of_step (hs.setPort _) (by rw [hport]), ho, hport, hlast,
    State.promote_of_nothing (.inr ?_)]
  · rfl
  · rw [State.order_setPort_port]
    exact hw

/-- The good frame on its line. -/
theorem lineBytes_of_step (hs : InStep s p g body h) (hl : (s.port p).listens = true)
    (hrx : (s.port p).rx = .receiving []) (hh : (s.port p).handling = none) (hw : (s.port p).waiting = none) :
    ∃ o : List Nat, lineBytes p ((linkFrame body).drop 2) s =
      { (s.setHub g ((s.hub g).past h)).setPort p { s.port p with rx := .hunting false } with order := o } := by
  obtain ⟨hlo, hhi⟩ := samplesHeader?_length hs.header
  have hfeed : feed 8192 (s.port p).rx ((linkFrame body).drop 2) = ([.good body], .hunting false) := by
    rw [hrx, linkFrame_drop_two, feed_frameTail hlo hhi (by omega)]
  obtain ⟨o, ho⟩ := State.offerFrame_of_step hs hh hw
  have hgood : s.rxEvent p (.good body) = s.offerFrame p body := State.rxEvent_of_listens hl _
  refine ⟨o, ?_⟩
  rw [lineBytes_of_feed hl hfeed, List.foldl_cons, List.foldl_nil, hgood, ho, State.keepReceiver,
    State.order_setPort_port, if_pos hl, State.setPort_setHub_setPort]

end

/-- Settles O25: the frame on its line, then each part of its handling by its equation. -/
theorem framesHandled : Obligations.FramesHandled := by
  refine ⟨?whole, ?stopped, fun s p => ⟨?deaf, ?line⟩, ?bytes, fun body h => samplesHeader?_iff,
    fun s p pk => ⟨rfl, pk.nodup_run, pk.mem_run⟩, ?continuity, fun s pk => ⟨State.restartRun_of_other, ?restart⟩, ?limit,
    ?deliver, ?sample, ?restartAt, ?report⟩
  case whole =>
    intro s p g body h hr hst hrx hh hw ha hb hg hv hp hcount hseq hasn hoff
    obtain ⟨o, ho⟩ := lineBytes_of_step ⟨ha, hb, hg, hv, hp, hcount, hseq, hasn, hoff⟩ (FieldPort.listens_iff.2 hst) hrx hh hw
    exact ⟨o, by rewrite [exec_out (f := lineBytes p _) rfl hr, ho]; rfl⟩
  case stopped =>
    intro s p body ha hh
    refine ⟨fun hb => State.handleFrame_of_bad_form hh hb, fun h hb => ⟨fun hor => ?_, fun g hg hv hp => ?_⟩⟩
    · refine State.handleFrame_of_no_hub hh hb ?_
      rcases hor with hl | ⟨g, hg, hbad⟩
      · exact State.hubFor_large s p hl
      · rw [hg, State.hubFor_of_other hbad]
    · rw [State.handleFrame_of_hub hh hb (by rw [hg, State.hubFor_of_hub hv hp]), if_neg ha]
      exact ⟨fun hne => if_pos (Ne.symm hne), fun he => if_neg (not_not.2 he.symm)⟩
  case deaf => exact fun hst e => State.rxEvent_of_not_listens (FieldPort.not_listens_iff.2 hst) e
  case line =>
    intro hst body len
    have hl := FieldPort.listens_iff.2 hst
    refine ⟨State.rxEvent_of_listens hl _, State.rxEvent_of_listens hl _, State.rxEvent_of_listens hl _, fun hh => ?_,
      fun h hh => ⟨fun hw => ?_, fun hw => ?_⟩⟩
    · exact (State.rxEvent_of_listens hl _).trans (State.offerFrame_of_empty hh body)
    · exact (State.rxEvent_of_listens hl _).trans (State.offerFrame_of_waiting hh hw body)
    · exact (State.rxEvent_of_listens hl _).trans (State.offerFrame_of_full hh hw body)
  case bytes =>
    rintro s p bytes evs rx t hr hst hor rfl
    have hfeed : feed 8192 (s.port p).rx bytes = (evs, rx) := by
      rcases hor with hf | ⟨got, buf, len, r, hrx, rfl, rfl, h1, hm, hl, hc, rfl, rfl, rfl⟩
      · exact hf
      · rw [hrx, feed_receiving, feed_frame_badCrc h1 hm hl hc]
    rw [exec_out (f := lineBytes p bytes) rfl hr, lineBytes_of_feed (FieldPort.listens_iff.2 hst) hfeed]
    simp only [State.keepReceiver, FieldPort.listens_iff]
  case continuity =>
    intro s p g body h cls t u ha hh hb hg hv hp hc hcls ht hu
    have ht' : t = s.checkSequence p g h body := by
      rw [ht]
      cases hq : (s.hub g).expSeq with
      | none => rw [State.checkSequence_of_none hq]
      | some q => rw [State.checkSequence_of_some hq]
    have hu' : u = (s.checkSequence p g h body).logClass p (classOf (s.hub g).expAsn (s.param .gapFill) h.asn) body := by
      rewrite [hu, ← ht', ← hcls]
      cases cls <;> rfl
    rw [State.handleFrame_of_hub hh hb (by rw [hg, State.hubFor_of_hub hv hp]), if_neg (not_not.2 hc.symm), if_pos ha,
      State.continuity_eq hu', ← hcls]
    refine ⟨fun hd => if_pos hd, ?_⟩
    rintro hd pk rfl
    rw [if_neg (by simp [hd])]
  case restart =>
    intro hcls
    obtain ⟨run, o, hrun, he⟩ := s.each_eq pk.run
      fun s j => if (s.chan j).state.conditioned = true then s.restartChan j pk.asn else s
    have hall : s.restartAll pk.run pk.asn = _ := he
    simp only [ChanState.conditioned_iff, State.restartChan_eq] at hall
    refine ⟨run, o, _, hrun, rfl, ?_⟩
    rw [← hall, State.restartRun_of_first hcls]
    exact ⟨State.notifiedAll_of_same (f := fun s => s.restartAll pk.run pk.asn),
      State.notifiedAll_of_changed (f := fun s => s.restartAll pk.run pk.asn)⟩
  case limit =>
    rintro s p pk l rfl
    refine ⟨fun hor => State.limitThenDeliver_of_within ?_, fun f hf hrun hle => ?_⟩
    · rw [State.beyondLimit_iff]
      rintro ⟨f, hf, ⟨j, hj, hne⟩, hle⟩
      rcases hor with hn | hall | ⟨f', hf', hlt⟩
      · rw [hf] at hn
        cases hn
      · exact hne (hall j hj)
      · rw [hf] at hf'
        cases hf'
        exact absurd hle (not_le.2 hlt)
    · rw [State.limitThenDeliver_of_beyond (State.beyondLimit_iff.2 ⟨f, hf, hrun, hle⟩)]
      exact ⟨fun hs => if_pos hs, fun hs => if_neg hs⟩
  case deliver =>
    intro s p pk body first hh hfirst hlt
    have hstart : first = pk.start := by
      rewrite [hfirst, Packet.start]
      cases pk.cls <;> rfl
    subst hstart
    obtain ⟨w, hw, he⟩ := s.deliver_eq pk body hlt
    refine ⟨w, _, hw, rfl, ?_⟩
    rewrite [State.deliverHandled_of_packet hh, he]
    rfl
  case sample =>
    intro s pk j asn x
    refine ⟨fun hst => ?_, fun hor hx => ?_, fun hst hx => ?_, fun hst hx f hf => ?_, fun hor => ?_, fun r hr =>
      ⟨State.condition_of_part hr, fun rep => State.condition_of_report hr⟩⟩
    · simp only [State.sampleIn, hst]
    · rcases hor with hst | hst <;> simp [State.sampleIn, hst, hx]
    · simp [State.sampleIn, hst, Option.isSome_iff_ne_none.2 hx]
    · have hin : s.sampleIn pk j asn x =
          if s.reenters pk asn = true then (s.restartAt j asn).condition j asn x else s := by
        simp [State.sampleIn, hst, Option.isSome_iff_ne_none.2 hx]
      rw [hin]
      refine ⟨fun h1 h2 => if_pos ((State.reenters_iff hf).2 ⟨h1, h2⟩), fun hno => if_neg ?_⟩
      rw [State.reenters_iff hf]
      omega
    · rcases hor with hst | hst | hst | hst <;> simp only [State.sampleIn, hst]
  case restartAt =>
    rintro s j asn t rfl
    rw [State.restartAt, State.notified_eq, State.restartChan_eq]
  case report =>
    intro s j rep
    obtain ⟨l, o, hl, he⟩ := s.each_eq [Receives.supervisor, .rejoin, .scheduler] fun s who => s.receive j rep who
    refine ⟨l, o, hl, he.trans ?_⟩
    congr 1
    funext t who
    cases who with
    | supervisor => exact State.notified_eq t j _
    | rejoin => rfl
    | scheduler => rfl

end Sys2Proof.Machine
end

section
/-!
PROOFS. ARRAY STOP (11): the truncation of the trigger unit, each block of the stop, and what stands when it is done.
-/

namespace Sys2Proof.Machine

/-! ## The truncation of the trigger unit (R132, R133) -/

theorem Trigger.truncate_of_idle {t : Trigger} (h : t.state = .idle) : t.truncate = ⟨t, [], none⟩ := by
  simp only [Trigger.truncate, h, Trigger.stay]

theorem Trigger.truncate_of_armed {t : Trigger} (h : t.state = .armed) :
    t.truncate = ⟨Trigger.powerOn, [⟨.armed, .idle, false⟩], none⟩ := by
  simp only [Trigger.truncate, h, Trigger.drop, List.nil_append]

theorem Trigger.truncate_of_opened {t : Trigger} (h : t.state = .opened) :
    t.truncate = ⟨Trigger.powerOn, [⟨.opened, .idle, false⟩], t.candidate.map fun p => ⟨p, t.openCount, false⟩⟩ := by
  simp only [Trigger.truncate, h, Trigger.closeNow, List.nil_append]

/-- A truncation ends in the record of power-on: an IDLE record that keeps its law is that record. -/
theorem Trigger.truncate_trig {t : Trigger} (h : TriggerOk t) : t.truncate.trig = Trigger.powerOn := by
  cases hs : t.state with
  | idle =>
    rw [Trigger.truncate_of_idle hs]
    simpa only [TriggerOk, hs] using h
  | armed => rw [Trigger.truncate_of_armed hs]
  | opened => rw [Trigger.truncate_of_opened hs]

theorem State.truncateTrigger_of_idle {s : State} (h : s.trig.state = .idle) (f : Nat) : s.truncateTrigger f = s := by
  rewrite [State.truncateTrigger, Trigger.truncate_of_idle h]
  rfl

theorem State.truncateTrigger_of_armed {s : State} (h : s.trig.state = .armed) (f : Nat) : s.truncateTrigger f =
    ({ s with trig := Trigger.powerOn } : State).offer (.trigger .armed .idle f false) := by
  rewrite [State.truncateTrigger, Trigger.truncate_of_armed h]
  rfl

theorem State.truncateTrigger_of_opened {s : State} {best : Peak} (h : s.trig.state = .opened)
    (hc : s.trig.candidate = some best) (f : Nat) : s.truncateTrigger f =
      (({ s with trig := Trigger.powerOn } : State).offer (.trigger .opened .idle f false)).closeEvent
        ⟨best, s.trig.openCount, false⟩ true := by
  rewrite [State.truncateTrigger, Trigger.truncate_of_opened h, hc]
  rfl

/-! ## The blocks of the stop (R197) -/

theorem State.popRequest_stopStacking (s : State) (c : CPort) : (s.popRequest c).stopStacking =
    { s.popRequest c with
      sched := { s.sched with window := none, timer := none, slips := [] }
      ports := vmap (fun x => if x.slipWait = true then { x with handling := none, slipWait := false } else x) s.ports } := by
  cases c <;> rfl

theorem State.stopChannels_eq (s : State) : s.stopChannels =
    if ∃ j, (s.chan j).state ≠ .off ∧ (s.chan j).state ≠ .await then
      ({ s with channels := vmap Channel.stopped s.channels } : State).raise .survey .channel
    else { s with channels := vmap Channel.stopped s.channels } := by
  have hany : (s.channels.toArray.toList.any fun c => c.state != .off && c.state != .await) = true ↔
      ∃ j, (s.chan j).state ≠ .off ∧ (s.chan j).state ≠ .await := by
    simp [toList_eq_map, State.chan]
  unfold State.stopChannels
  exact if_congr hany rfl rfl

theorem State.considerSwap_of_stopped {s : State} (h : s.array = .stopped) :
    s.considerSwap = if s.banks.standbyState = .pending then s.swapBanks else s := by
  refine if_congr ?_ rfl rfl
  rw [State.swapDue_iff]
  exact ⟨fun hd => hd.1, fun hp => ⟨hp, .inl h⟩⟩

theorem State.promoteAll_eq (s : State) : s.promoteAll = (((s.promote 0).promote 1).promote 2).promote 3 := rfl

theorem State.promoteAll_of_nothing {s : State} (h : ∀ p, (s.port p).waiting = none) : s.promoteAll = s :=
  foldl_keeps (P := fun t => t = s) _ (fun t p _ ht => by rw [ht, State.promote_of_nothing (.inr (h p))]) s rfl

/-- The part as the stop leaves it, ahead of the frames that follow into emptied places. -/
structure State.StoppedBy (s t : State) : Prop where
  array : t.array = .stopped
  sched : t.sched = Sched.powerOn
  trig : t.trig = s.trig.truncate.trig
  chan : ∀ j, t.chan j = (s.chan j).stopped
  hubs : t.hubs = vmap HubEntry.forget s.hubs
  params : t.params = s.params
  zones : t.zones = s.zones
  ports : t.ports = vmap FieldPort.dropSlipWait s.ports
  grid : t.banks.grid = s.banks.grid
  pending : t.pending = s.pending

theorem State.stopChannels_frame (s : State) :
    SameRecords { s with channels := vmap Channel.stopped s.channels } s.stopChannels := by
  rw [State.stopChannels_eq]
  exact SameRecords.ite (SameRecords.raise _ _ _) (SameRecords.refl _)

theorem State.stoppedBy (s : State) : s.StoppedBy s.stopArray := by
  have h2 := State.truncateTrigger_frame s.stopStacking (s.sched.front.getD 0)
  rw [State.stopArray]
  generalize s.stopStacking.truncateTrigger (s.sched.front.getD 0) = s2 at h2
  have h3 := s2.stopChannels_frame
  dsimp only
  generalize s2.stopChannels = s3 at h3
  have h6 := SameRecords.offer ({ s3.forgetHubs (fun _ => true) with sched := Sched.powerOn } : State) (.run true)
  generalize ({ s3.forgetHubs (fun _ => true) with sched := Sched.powerOn } : State).offer (.run true) = s6 at h6
  have h7 := State.considerSwap_frame { s6 with array := .stopped }
  have hgrid := (Keeps.considerSwap { s6 with array := .stopped }).grid
  generalize State.considerSwap { s6 with array := .stopped } = t at h7 hgrid
  have hchannels : t.channels = vmap Channel.stopped s.channels :=
    h7.channels.trans (h6.channels.trans (h3.channels.trans (congrArg (vmap Channel.stopped) h2.channels)))
  refine ⟨h7.array, h7.sched.trans h6.sched, ?_, fun j => ?_, ?_, ?_, ?_, ?_, ?_, ?_⟩
  · exact h7.trig.trans (h6.trig.trans (h3.trig.trans h2.trig))
  · rewrite [State.chan, hchannels, vget_vmap]
    rfl
  · exact h7.hubs.trans (h6.hubs.trans (congrArg (vmap HubEntry.forget) (h3.hubs.trans h2.hubs)))
  · exact h7.params.trans (h6.params.trans (h3.params.trans h2.params))
  · exact h7.zones.trans (h6.zones.trans (h3.zones.trans h2.zones))
  · exact h7.ports.trans (h6.ports.trans (h3.ports.trans h2.ports))
  · exact hgrid.trans (congrArg BankCtl.grid (h6.banks.trans (h3.banks.trans h2.banks)))
  · exact h7.pending.trans (h6.pending.trans (h3.pending.trans h2.pending))

theorem vmap_dropSlipWait {v : Vector FieldPort 4} (h : ∀ p, (vget v p).slipWait = false) :
    vmap FieldPort.dropSlipWait v = v := by
  refine Vector.ext fun i hi => ?_
  have hget := vget_vmap FieldPort.dropSlipWait v ⟨i, hi⟩
  rw [FieldPort.dropSlipWait, h ⟨i, hi⟩] at hget
  exact hget

theorem Channel.stopped_spec (x : Channel) : x.stopped.state = (if x.state = .off then .off else .await) ∧
    x.stopped.weightInForce = x.cfg.weight ∧ x.stopped.cfg = x.cfg ∧ x.stopped.alarms = x.alarms ∧
    (x.state ≠ .off → x.stopped.cond = none ∧ x.stopped.ring = []) := by
  by_cases hx : x.state = .off <;> simp [Channel.stopped, Channel.discard, hx]

theorem arrayStopOwner_of_running {s : State} (h : s.array = .running) (payload : List Byte) :
    arrayStopOwner payload s = ⟨.ok, [], s.stopArray.promoteAll⟩ := if_pos h

/-- Settles O8: the stop block by block, then what it leaves where no port holds a frame. -/
theorem arrayStop : Obligations.ArrayStop := by
  refine ⟨fun s c tag payload h => ⟨?blocks, ?leaves, fun ha => ?_⟩, fun s f => ⟨fun hs => State.truncateTrigger_of_idle hs f,
    fun hs => State.truncateTrigger_of_armed hs f, fun best hs hc => State.truncateTrigger_of_opened hs hc f⟩,
    fun s p => ⟨fun body => State.promote_of_waiting, State.promote_of_nothing⟩⟩
  case blocks =>
    intro ha s1 s2 s3 s4 s5 s6 s7 h1 h2 h3 h4 h5 h6 h7
    have h2' : s2 = (s.popRequest c).stopStacking.truncateTrigger (s.sched.front.getD 0) := by
      rw [h2, h1, State.popRequest_stopStacking]
    have h3' : s3 = { s2 with channels := vmap Channel.stopped s2.channels } := h3
    have h4' : s4 = s2.stopChannels := by
      rw [h4, h3', State.stopChannels_eq]
    have h5' : s5 = { s4.forgetHubs (fun _ => true) with sched := Sched.powerOn } := by
      rewrite [h5, State.forgetHubs_true]
      rfl
    have h7' : s7 = s6.considerSwap := by
      rw [h7, State.considerSwap_of_stopped (by rw [h6])]
    have hstop : (s.popRequest c).stopArray = s7 := by
      rw [h7', h6, h5', h4', h2', State.stopArray, State.popRequest_sched]
    refine exec_served_of_owner (req := .arrayStop) h ?_
    rw [← State.promoteAll_eq, ← hstop]
    exact arrayStopOwner_of_running (by simpa using ha) payload
  case leaves =>
    intro ha htrig hports
    have hst := (s.popRequest c).stoppedBy
    have hp : (s.popRequest c).stopArray.ports = s.ports := by
      rw [hst.ports, State.popRequest_ports, vmap_dropSlipWait fun p => (hports p).2.2]
    have hnone : (s.popRequest c).stopArray.promoteAll = (s.popRequest c).stopArray := by
      refine State.promoteAll_of_nothing fun p => ?_
      rw [State.port, hp]
      exact (hports p).2.1
    refine ⟨(s.popRequest c).stopArray, ?_, hst.array, hst.sched, ?_, fun j => ?_, fun g => ?_, ?_, ?_, hp, ?_, ?_⟩
    · refine exec_served_of_owner (req := .arrayStop) h ?_
      exact (arrayStopOwner_of_running (by simpa using ha) payload).trans (by rw [hnone])
    · rw [hst.trig, State.popRequest_trig, Trigger.truncate_trig htrig]
    · rw [hst.chan, State.popRequest_chan]
      exact Channel.stopped_spec _
    · rw [State.hub, hst.hubs, vget_vmap, State.popRequest_hubs]
      exact ⟨rfl, rfl, rfl⟩
    · rw [hst.params, State.popRequest_params]
    · rw [hst.zones, State.popRequest_zones]
    · rw [hst.grid, State.popRequest_banks]
    · rw [hst.pending, State.popRequest_pending]
  · exact exec_served_of_refuse (req := .arrayStop) h (by simp [ownerOf, arrayStopOwner, ha])

end Sys2Proof.Machine
end
